-- ==== Sys2Proof/Word.lean ====
section
/-!
DEFINITION. The word types of the machine (00_scope.md R5, R6, R8). Every value is unsigned.
-/

namespace Sys2Proof

/-- A byte: a V register, a timer, a memory byte, the immediate `kk`. -/
abbrev Byte := BitVec 8

/-- A word: an instruction, `pc`, `I`, a stack entry. -/
abbrev Word := BitVec 16

/-- A 4-bit field: a register index `x` or `y`, a sprite height `n`, a key index. -/
abbrev Nibble := BitVec 4

/-- The 12-bit immediate address `nnn`. -/
abbrev Addr12 := BitVec 12

end Sys2Proof
end

