-- ==== Sys2Proof/Config.lean ====
section
/-!
DEFINITION. What an implementation fixes (00_scope.md R5, rows marked `parameter`), the constants of R5,
and the one free value of the machine, the random byte (60_exceptions.md R162).
-/

namespace Sys2Proof

/-- The two parameters of R5. The state carries them in a field that no step changes, so a statement about
every state is a statement for every FONT and every STACK_LIMIT (log entry 3). -/
structure Config where
  /-- `FONT`: the 80 glyph bytes (20_memory.md R42, R43). -/
  font : Vector Byte 80
  /-- `STACK_LIMIT`: none (unbounded), or the number of entries at which CALL faults (10_state.md R17). -/
  stackLimit : Option Nat
deriving DecidableEq, Repr

/-- FREE VALUE. `Config.rnd k` is the byte the random source supplies to the `k`-th execution of RND
(41_alu.md R111, 60_exceptions.md R162: any of the 256 values, under no law). It has no body: nothing can be
proved of a value of it (log entry 1). -/
opaque Config.rnd : Nat → Byte

/-- `MEM_SIZE` of R5. -/
abbrev memSize : Nat := 4096

/-- `PROG_BASE` of R5: the program image loads here and execution starts here. -/
abbrev progBase : Nat := 0x200

/-- `MAX_IMAGE` of R5. -/
abbrev maxImage : Nat := 3584

/-- `DISP_W` of R5. -/
abbrev dispW : Nat := 64

/-- `DISP_H` of R5. -/
abbrev dispH : Nat := 32

end Sys2Proof
end

