-- ==== Sys2Proof/Syntax.lean ====
section
/-!
DEFINITION. The instructions: one constructor per row of spec/opcode_table.json, in the table's order
(30_encoding.md R64). Register and key operands are 4-bit fields, `kk` 8 bits, `nnn` 12 bits (R61, R62).
-/

namespace Sys2Proof

/-- The 34 instructions of 30_encoding.md R64. -/
inductive Instr where
  /-- `CLS`, 43_display.md R130. -/
  | cls
  /-- `RET`, 40_control_transfer.md R80. -/
  | ret
  /-- `JP nnn`, R81. -/
  | jp (nnn : Addr12)
  /-- `CALL nnn`, R83. -/
  | call (nnn : Addr12)
  /-- `SE Vx, kk`, R84. -/
  | seImm (x : Nibble) (kk : Byte)
  /-- `SNE Vx, kk`, R85. -/
  | sneImm (x : Nibble) (kk : Byte)
  /-- `SE Vx, Vy`, R86. -/
  | seReg (x y : Nibble)
  /-- `LD Vx, kk`, 41_alu.md R100. -/
  | ldImm (x : Nibble) (kk : Byte)
  /-- `ADD Vx, kk`, R101. -/
  | addImm (x : Nibble) (kk : Byte)
  /-- `LD Vx, Vy`, R102. -/
  | ldReg (x y : Nibble)
  /-- `OR Vx, Vy`, R103. -/
  | orReg (x y : Nibble)
  /-- `AND Vx, Vy`, R104. -/
  | andReg (x y : Nibble)
  /-- `XOR Vx, Vy`, R105. -/
  | xorReg (x y : Nibble)
  /-- `ADD Vx, Vy`, R106. -/
  | addReg (x y : Nibble)
  /-- `SUB Vx, Vy`, R107. -/
  | subReg (x y : Nibble)
  /-- `SHR Vx, Vy`, R109. -/
  | shr (x y : Nibble)
  /-- `SUBN Vx, Vy`, R108. -/
  | subnReg (x y : Nibble)
  /-- `SHL Vx, Vy`, R110. -/
  | shl (x y : Nibble)
  /-- `SNE Vx, Vy`, 40_control_transfer.md R87. -/
  | sneReg (x y : Nibble)
  /-- `LD I, nnn`, 42_index_memory.md R120. -/
  | ldI (nnn : Addr12)
  /-- `JP V0, nnn`, 40_control_transfer.md R82. -/
  | jpV0 (nnn : Addr12)
  /-- `RND Vx, kk`, 41_alu.md R111. -/
  | rnd (x : Nibble) (kk : Byte)
  /-- `DRW Vx, Vy, n`, 43_display.md R131. -/
  | drw (x y n : Nibble)
  /-- `SKP Vx`, 44_keys_timers.md R140. -/
  | skp (x : Nibble)
  /-- `SKNP Vx`, R141. -/
  | sknp (x : Nibble)
  /-- `LD Vx, DT`, R142. -/
  | ldVxDt (x : Nibble)
  /-- `LD Vx, K`, R143. -/
  | ldVxK (x : Nibble)
  /-- `LD DT, Vx`, R144. -/
  | ldDtVx (x : Nibble)
  /-- `LD ST, Vx`, R145. -/
  | ldStVx (x : Nibble)
  /-- `ADD I, Vx`, 42_index_memory.md R121. -/
  | addI (x : Nibble)
  /-- `LD F, Vx`, R122. -/
  | ldF (x : Nibble)
  /-- `LD B, Vx`, R123. -/
  | ldB (x : Nibble)
  /-- `LD [I], Vx`, R124. -/
  | ldMemVx (x : Nibble)
  /-- `LD Vx, [I]`, R125. -/
  | ldVxMem (x : Nibble)
deriving DecidableEq, Repr

/-- The number of an instruction's row in the opcode map of 30_encoding.md R64. -/
def Instr.row : Instr → Nat
  | .cls => 1
  | .ret => 2
  | .jp _ => 3
  | .call _ => 4
  | .seImm _ _ => 5
  | .sneImm _ _ => 6
  | .seReg _ _ => 7
  | .ldImm _ _ => 8
  | .addImm _ _ => 9
  | .ldReg _ _ => 10
  | .orReg _ _ => 11
  | .andReg _ _ => 12
  | .xorReg _ _ => 13
  | .addReg _ _ => 14
  | .subReg _ _ => 15
  | .shr _ _ => 16
  | .subnReg _ _ => 17
  | .shl _ _ => 18
  | .sneReg _ _ => 19
  | .ldI _ => 20
  | .jpV0 _ => 21
  | .rnd _ _ => 22
  | .drw _ _ _ => 23
  | .skp _ => 24
  | .sknp _ => 25
  | .ldVxDt _ => 26
  | .ldVxK _ => 27
  | .ldDtVx _ => 28
  | .ldStVx _ => 29
  | .addI _ => 30
  | .ldF _ => 31
  | .ldB _ => 32
  | .ldMemVx _ => 33
  | .ldVxMem _ => 34

end Sys2Proof
end

