-- ==== Sys2Proof/WellFormed.lean ====
section
/-!
DEFINITION. Well-formedness of what comes from outside: a program image (70_reset_and_hazards.md R181) and an
instruction (30_encoding.md R62: every value of every field is legal, so the field widths of Syntax are the
whole check and no ill-formed instruction can be written down).
-/

namespace Sys2Proof

/-- A program image fits before 4096: at most 3584 bytes (R44, R181). -/
def imageFits (image : List Byte) : Bool := image.length ≤ maxImage

/-- Every instruction is well formed: no field has a reserved value (R62). -/
def Instr.wf : Instr → Bool
  | .cls | .ret => true
  | .jp _ | .call _ | .ldI _ | .jpV0 _ => true
  | .seImm _ _ | .sneImm _ _ | .ldImm _ _ | .addImm _ _ | .rnd _ _ => true
  | .seReg _ _ | .sneReg _ _ | .ldReg _ _ | .orReg _ _ | .andReg _ _ | .xorReg _ _ => true
  | .addReg _ _ | .subReg _ _ | .shr _ _ | .subnReg _ _ | .shl _ _ => true
  | .drw _ _ _ => true
  | .skp _ | .sknp _ | .ldVxDt _ | .ldVxK _ | .ldDtVx _ | .ldStVx _ => true
  | .addI _ | .ldF _ | .ldB _ | .ldMemVx _ | .ldVxMem _ => true

end Sys2Proof
end

