-- ==== Sys2Proof/Decode.lean ====
section
/-!
DEFINITION. Decoding (30_encoding.md R61, R63, R64, R65) and, after it, the encoder (R67) and the opcode map.
The bit patterns are those of R64, which the spec marks as general knowledge it adopts (D36; log entry 12).
-/

namespace Sys2Proof

/-- What a word decodes to: an instruction, or by name the explicit `Unknown` variant of R65. -/
inductive Decoded where
  | instr (i : Instr)
  | unknown (w : Word)
deriving DecidableEq, Repr

/-- `op = w[15:12]` (R61). -/
def opField (w : Word) : Nibble := w.extractLsb' 12 4

/-- `x = w[11:8]` (R8). -/
def xField (w : Word) : Nibble := w.extractLsb' 8 4

/-- `y = w[7:4]` (R8). -/
def yField (w : Word) : Nibble := w.extractLsb' 4 4

/-- `n = w[3:0]` (R8). -/
def nField (w : Word) : Nibble := w.extractLsb' 0 4

/-- `kk = w[7:0]` (R8). -/
def kkField (w : Word) : Byte := w.extractLsb' 0 8

/-- `nnn = w[11:0]` (R8). -/
def nnnField (w : Word) : Addr12 := w.extractLsb' 0 12

/-- Family 0 of R63: all 12 low bits are the key. -/
def decode0 (w : Word) : Decoded :=
  if w = 0x00E0 then .instr .cls
  else if w = 0x00EE then .instr .ret
  else .unknown w

/-- Family 8 of R63: keyed on the low digit. -/
def decode8 (w : Word) : Decoded :=
  match (nField w).toNat with
  | 0x0 => .instr (.ldReg (xField w) (yField w))
  | 0x1 => .instr (.orReg (xField w) (yField w))
  | 0x2 => .instr (.andReg (xField w) (yField w))
  | 0x3 => .instr (.xorReg (xField w) (yField w))
  | 0x4 => .instr (.addReg (xField w) (yField w))
  | 0x5 => .instr (.subReg (xField w) (yField w))
  | 0x6 => .instr (.shr (xField w) (yField w))
  | 0x7 => .instr (.subnReg (xField w) (yField w))
  | 0xE => .instr (.shl (xField w) (yField w))
  | _ => .unknown w

/-- Family E of R63: keyed on the whole low byte (C6). -/
def decodeE (w : Word) : Decoded :=
  if kkField w = 0x9E then .instr (.skp (xField w))
  else if kkField w = 0xA1 then .instr (.sknp (xField w))
  else .unknown w

/-- Family F of R63: keyed on the whole low byte (C6). -/
def decodeF (w : Word) : Decoded :=
  if kkField w = 0x07 then .instr (.ldVxDt (xField w))
  else if kkField w = 0x0A then .instr (.ldVxK (xField w))
  else if kkField w = 0x15 then .instr (.ldDtVx (xField w))
  else if kkField w = 0x18 then .instr (.ldStVx (xField w))
  else if kkField w = 0x1E then .instr (.addI (xField w))
  else if kkField w = 0x29 then .instr (.ldF (xField w))
  else if kkField w = 0x33 then .instr (.ldB (xField w))
  else if kkField w = 0x55 then .instr (.ldMemVx (xField w))
  else if kkField w = 0x65 then .instr (.ldVxMem (xField w))
  else .unknown w

/-- `Decode` of R63: total on 16-bit words, primary key the high digit. -/
def decode (w : Word) : Decoded :=
  match (opField w).toNat with
  | 0x0 => decode0 w
  | 0x1 => .instr (.jp (nnnField w))
  | 0x2 => .instr (.call (nnnField w))
  | 0x3 => .instr (.seImm (xField w) (kkField w))
  | 0x4 => .instr (.sneImm (xField w) (kkField w))
  | 0x5 => if nField w = 0 then .instr (.seReg (xField w) (yField w)) else .unknown w
  | 0x6 => .instr (.ldImm (xField w) (kkField w))
  | 0x7 => .instr (.addImm (xField w) (kkField w))
  | 0x8 => decode8 w
  | 0x9 => if nField w = 0 then .instr (.sneReg (xField w) (yField w)) else .unknown w
  | 0xA => .instr (.ldI (nnnField w))
  | 0xB => .instr (.jpV0 (nnnField w))
  | 0xC => .instr (.rnd (xField w) (kkField w))
  | 0xD => .instr (.drw (xField w) (yField w) (nField w))
  | 0xE => decodeE w
  | _ => decodeF w

/-- The word of two bytes in memory order: the byte at the lower address is `w[15:8]` (20_memory.md R46). -/
def wordOfBytes (hi lo : Byte) : Word := hi ++ lo

/-- The byte of a word stored at the lower address (R46). -/
def hiByte (w : Word) : Byte := w.extractLsb' 8 8

/-- The byte of a word stored at the higher address (R46). -/
def loByte (w : Word) : Byte := w.extractLsb' 0 8

/-- Decoding a byte sequence in memory order: what its first two bytes decode to and the rest; `none` where
fewer than two bytes stand there (every instruction is two bytes, R60). -/
def decodeBytes : List Byte → Option (Decoded × List Byte)
  | hi :: lo :: rest => some (decode (wordOfBytes hi lo), rest)
  | _ => none

/-- `Encode` of R67: the row's fixed digits with the operand fields placed as in R61. -/
def encode : Instr → Word
  | .cls => 0x00E0
  | .ret => 0x00EE
  | .jp nnn => (0x1 : Nibble) ++ nnn
  | .call nnn => (0x2 : Nibble) ++ nnn
  | .seImm x kk => (0x3 : Nibble) ++ x ++ kk
  | .sneImm x kk => (0x4 : Nibble) ++ x ++ kk
  | .seReg x y => (0x5 : Nibble) ++ x ++ y ++ (0x0 : Nibble)
  | .ldImm x kk => (0x6 : Nibble) ++ x ++ kk
  | .addImm x kk => (0x7 : Nibble) ++ x ++ kk
  | .ldReg x y => (0x8 : Nibble) ++ x ++ y ++ (0x0 : Nibble)
  | .orReg x y => (0x8 : Nibble) ++ x ++ y ++ (0x1 : Nibble)
  | .andReg x y => (0x8 : Nibble) ++ x ++ y ++ (0x2 : Nibble)
  | .xorReg x y => (0x8 : Nibble) ++ x ++ y ++ (0x3 : Nibble)
  | .addReg x y => (0x8 : Nibble) ++ x ++ y ++ (0x4 : Nibble)
  | .subReg x y => (0x8 : Nibble) ++ x ++ y ++ (0x5 : Nibble)
  | .shr x y => (0x8 : Nibble) ++ x ++ y ++ (0x6 : Nibble)
  | .subnReg x y => (0x8 : Nibble) ++ x ++ y ++ (0x7 : Nibble)
  | .shl x y => (0x8 : Nibble) ++ x ++ y ++ (0xE : Nibble)
  | .sneReg x y => (0x9 : Nibble) ++ x ++ y ++ (0x0 : Nibble)
  | .ldI nnn => (0xA : Nibble) ++ nnn
  | .jpV0 nnn => (0xB : Nibble) ++ nnn
  | .rnd x kk => (0xC : Nibble) ++ x ++ kk
  | .drw x y n => (0xD : Nibble) ++ x ++ y ++ n
  | .skp x => (0xE : Nibble) ++ x ++ (0x9E : Byte)
  | .sknp x => (0xE : Nibble) ++ x ++ (0xA1 : Byte)
  | .ldVxDt x => (0xF : Nibble) ++ x ++ (0x07 : Byte)
  | .ldVxK x => (0xF : Nibble) ++ x ++ (0x0A : Byte)
  | .ldDtVx x => (0xF : Nibble) ++ x ++ (0x15 : Byte)
  | .ldStVx x => (0xF : Nibble) ++ x ++ (0x18 : Byte)
  | .addI x => (0xF : Nibble) ++ x ++ (0x1E : Byte)
  | .ldF x => (0xF : Nibble) ++ x ++ (0x29 : Byte)
  | .ldB x => (0xF : Nibble) ++ x ++ (0x33 : Byte)
  | .ldMemVx x => (0xF : Nibble) ++ x ++ (0x55 : Byte)
  | .ldVxMem x => (0xF : Nibble) ++ x ++ (0x65 : Byte)

/-- One row of the opcode map of R64: its number, its `match` and its `mask`. -/
structure OpcodeRow where
  row : Nat
  pattern : Word
  mask : Word
deriving DecidableEq, Repr

/-- Rows 1 to 18 of the opcode map of R64. -/
def opcodeRowsLow : List OpcodeRow :=
  [⟨1, 0x00E0, 0xFFFF⟩, ⟨2, 0x00EE, 0xFFFF⟩, ⟨3, 0x1000, 0xF000⟩, ⟨4, 0x2000, 0xF000⟩,
   ⟨5, 0x3000, 0xF000⟩, ⟨6, 0x4000, 0xF000⟩, ⟨7, 0x5000, 0xF00F⟩, ⟨8, 0x6000, 0xF000⟩,
   ⟨9, 0x7000, 0xF000⟩, ⟨10, 0x8000, 0xF00F⟩, ⟨11, 0x8001, 0xF00F⟩, ⟨12, 0x8002, 0xF00F⟩,
   ⟨13, 0x8003, 0xF00F⟩, ⟨14, 0x8004, 0xF00F⟩, ⟨15, 0x8005, 0xF00F⟩, ⟨16, 0x8006, 0xF00F⟩,
   ⟨17, 0x8007, 0xF00F⟩, ⟨18, 0x800E, 0xF00F⟩]

/-- Rows 19 to 34 of the opcode map of R64. -/
def opcodeRowsHigh : List OpcodeRow :=
  [⟨19, 0x9000, 0xF00F⟩, ⟨20, 0xA000, 0xF000⟩, ⟨21, 0xB000, 0xF000⟩, ⟨22, 0xC000, 0xF000⟩,
   ⟨23, 0xD000, 0xF000⟩, ⟨24, 0xE09E, 0xF0FF⟩, ⟨25, 0xE0A1, 0xF0FF⟩, ⟨26, 0xF007, 0xF0FF⟩,
   ⟨27, 0xF00A, 0xF0FF⟩, ⟨28, 0xF015, 0xF0FF⟩, ⟨29, 0xF018, 0xF0FF⟩, ⟨30, 0xF01E, 0xF0FF⟩,
   ⟨31, 0xF029, 0xF0FF⟩, ⟨32, 0xF033, 0xF0FF⟩, ⟨33, 0xF055, 0xF0FF⟩, ⟨34, 0xF065, 0xF0FF⟩]

/-- The opcode map of R64, 34 rows. -/
def opcodeRows : List OpcodeRow := opcodeRowsLow ++ opcodeRowsHigh

/-- The word the host's table numbering gives: bit 0 of `w` is bit 0 of the one 16-bit word, bits from `nbits`
up are 0. -/
def tableWord (nbits w : Nat) : Word := BitVec.ofNat 16 (w % 2 ^ nbits)

/-- The instruction the decoder reads from the bytes of a table word laid out in memory order, the high byte at
the lower address (R46); `none` where it decodes to `Unknown` or is wider than the one instruction word (R60). -/
def decodeTableWord (nbits w : Nat) : Option Instr :=
  if nbits ≤ 16 then
    match decodeBytes [hiByte (tableWord nbits w), loByte (tableWord nbits w)] with
    | some (.instr i, _) => some i
    | _ => none
  else none

end Sys2Proof
end

