-- ==== Sys2Proof/Machine/Font.lean ====
section
/-!
DEFINITION. The default FONT (20_memory.md R43) and the memory's contents after a reset with an empty image
(10_state.md R28, 20_memory.md R41): what a byte that memory does not list reads as.
-/

namespace Sys2Proof

/-- The default FONT of R43, glyphs 0 to F, five bytes each. -/
def defaultFont : Vector Byte 80 :=
  #v[0xF0, 0x90, 0x90, 0x90, 0xF0, 0x20, 0x60, 0x20, 0x20, 0x70,
     0xF0, 0x10, 0xF0, 0x80, 0xF0, 0xF0, 0x10, 0xF0, 0x10, 0xF0,
     0x90, 0x90, 0xF0, 0x10, 0x10, 0xF0, 0x80, 0xF0, 0x10, 0xF0,
     0xF0, 0x80, 0xF0, 0x90, 0xF0, 0xF0, 0x10, 0x20, 0x40, 0x40,
     0xF0, 0x90, 0xF0, 0x90, 0xF0, 0xF0, 0x90, 0xF0, 0x10, 0xF0,
     0xF0, 0x90, 0xF0, 0x90, 0x90, 0xE0, 0x90, 0xE0, 0x90, 0xE0,
     0xF0, 0x80, 0x80, 0x80, 0xF0, 0xE0, 0x90, 0x90, 0x90, 0xE0,
     0xF0, 0x80, 0xF0, 0x80, 0xF0, 0xF0, 0x80, 0xF0, 0x80, 0x80]

/-- The parameters at the spec's defaults (00_scope.md R5): the default font, no stack limit. -/
def Config.default : Config := { font := defaultFont, stackLimit := none }

/-- What an address that memory does not list reads as: the reset contents of 10_state.md R28 with an empty
image, `FONT[a]` below 0x050 and 0x00 above. -/
def Config.resetByte (c : Config) (a : Nat) : Byte :=
  if h : a < 80 then c.font[a] else 0x00

end Sys2Proof
end

