-- ==== Sys2Proof/Machine/State.lean ====
section
/-!
DEFINITION. The state as plain data (10_state.md section 1), the steps the agents may be scheduled to take
(R23), the fault and refusal reasons of a step, and the state after reset (R28).
-/

namespace Sys2Proof.Machine

/-- The causes of a fault, 60_exceptions.md R150. -/
inductive Cause where
  | unknownOpcode
  | stackUnderflow
  | fetchOutOfRange
  | memOutOfRange
  | keyIndexOutOfRange
  | stackOverflow
deriving DecidableEq, Repr

/-- The fault record of 10_state.md R22. -/
structure FaultRecord where
  cause : Cause
  /-- The instruction word of the faulting step, 0 when the fetch itself faulted. -/
  word : Word
  /-- The `pc` the faulting step fetched from. -/
  addr : Word
deriving DecidableEq, Repr

/-- All the state the spec gives the machine, 10_state.md section 1: what `StateRead` copies and
`StateRestore` overwrites (60_exceptions.md R164). -/
structure MachineState where
  /-- General registers `V0` to `VF` (R10, R11). -/
  V : Vector Byte 16
  /-- Program counter (R12 to R14). -/
  pc : Word
  /-- Index register (R15, R16). -/
  I : Word
  /-- Call stack, the entry pushed last at the end (R17). -/
  stack : List Word
  /-- Delay timer (R18). -/
  DT : Byte
  /-- Sound timer (R18). -/
  ST : Byte
  /-- Key flags (R19). -/
  key : Vector Bool 16
  /-- The display buffer (R20) as the rising list of the indices of its lit cells (log entry 13). -/
  disp : List Nat
  /-- Memory (R21) as the canonical list of the bytes that differ from the reset contents (log entry 4). -/
  mem : List Host.Cell
  /-- `sound_playing` (R22). -/
  soundPlaying : Bool
  /-- The fault record, absent while the machine is not halted (R22). -/
  fault : Option FaultRecord
deriving DecidableEq, Repr

/-- The agents' steps of 10_state.md R23, as events at the ports of R26. -/
inductive Event where
  /-- `instr_tick`: one `InstrStep` (R24). -/
  | instrTick
  /-- `timer_tick`: one `TimerTick` (60_exceptions.md R158). -/
  | timerTick
  /-- `KeyDown(k)` (R160). -/
  | keyDown (k : Nibble)
  /-- `KeyUp(k)` (R160). -/
  | keyUp (k : Nibble)
  /-- `DisplayRead` (R161). -/
  | displayRead
  /-- `StateRead` (R164). -/
  | stateRead
  /-- `StateRestore(m)` (R164). -/
  | stateRestore (m : MachineState)
  /-- `Reset(image)` (70_reset_and_hazards.md R180). -/
  | reset (image : List Byte)
deriving DecidableEq, Repr

/-- The pulses a step can drive: the two sound edges of 60_exceptions.md R159, and the report to the host that
an image did not fit (70_reset_and_hazards.md R181). -/
inductive Signal where
  | soundStart
  | soundStop
  | loadError
deriving DecidableEq, Repr

/-- The machine: the spec's state, and four fields of the model's own (INVENTORY.md). -/
structure State extends MachineState where
  /-- The parameters of 00_scope.md R5; no step changes them (log entry 3). -/
  cfg : Config
  /-- How many random bytes RND has taken (log entry 1). -/
  draws : Nat
  /-- The agents' steps to come, oldest first; where it is empty the instruction engine steps (log entry 2). -/
  schedule : List Event
  /-- The pulse the last step drove, if any (log entry 8). -/
  signal : Option Signal
deriving DecidableEq, Repr

/-- Why the machine stops. -/
inductive Fault where
  /-- Raised by `step` alone, when a fault is recorded and no step is scheduled: the machine is halted and no
  agent has a step (60_exceptions.md R151). SAFE: the model stops where the spec's machine stops. -/
  | halted
deriving DecidableEq, Repr

/-- Why an instruction has no meaning. -/
inductive Refusal where
  /-- Raised by an arm of `exec` for an instruction not modelled yet; no arm does so. SAFE. -/
  | notModelled (mnemonic : String)
deriving DecidableEq, Repr

/-- The spec's state after `Reset` with an empty image (10_state.md R28, 70_reset_and_hazards.md R180). -/
def MachineState.reset : MachineState where
  V := Vector.replicate 16 0
  pc := 0x200
  I := 0
  stack := []
  DT := 0
  ST := 0
  key := Vector.replicate 16 false
  disp := []
  mem := []
  soundPlaying := false
  fault := none

/-- The machine right after reset with an empty image, at the default parameters, nothing scheduled. -/
def State.reset : State where
  toMachineState := MachineState.reset
  cfg := Config.default
  draws := 0
  schedule := []
  signal := none

end Sys2Proof.Machine
end

