-- ==== Sys2Proof/Machine/Memory.lean ====
section
/-!
DEFINITION. Memory (20_memory.md) and the display buffer (10_state.md R20) as sorted lists in one canonical
form, and their operations. Memory lists the bytes that differ from the reset contents, the display the cells
that are lit.
-/

namespace Sys2Proof.Machine

/-- The byte a list of cells holds at an address, if it lists one. -/
def Memory.lookup : List Host.Cell → Nat → Option Byte
  | [], _ => none
  | (k, v) :: rest, a => if k = a then some v else Memory.lookup rest a

/-- A read of one byte: the listed byte, else the reset contents (R52 (b)). -/
def Memory.read (c : Config) (m : List Host.Cell) (a : Nat) : Byte :=
  (Memory.lookup m a).getD (c.resetByte a)

/-- List the byte `b` at address `a`, keeping the addresses rising. -/
def Memory.put : List Host.Cell → Nat → Byte → List Host.Cell
  | [], a, b => [(a, b)]
  | (k, v) :: rest, a, b =>
    if a < k then (a, b) :: (k, v) :: rest
    else if a = k then (a, b) :: rest
    else (k, v) :: Memory.put rest a b

/-- Take address `a` out of the list. -/
def Memory.erase : List Host.Cell → Nat → List Host.Cell
  | [], _ => []
  | (k, v) :: rest, a => if k = a then Memory.erase rest a else (k, v) :: Memory.erase rest a

/-- A write of one byte, in canonical form. An address above 4095 names no byte (R40); every instruction checks
its addresses before it writes (R45), and such a write changes nothing. -/
def Memory.write (c : Config) (m : List Host.Cell) (a : Nat) (b : Byte) : List Host.Cell :=
  if a < memSize then
    if b = c.resetByte a then Memory.erase m a else Memory.put m a b
  else m

/-- The canonical form: addresses strictly rising, inside the address space, and no entry equal to what an
unlisted address reads as. -/
abbrev Memory.wf (c : Config) (m : List Host.Cell) : Prop :=
  m.Pairwise (fun p q => p.1 < q.1) ∧ ∀ p ∈ m, p.1 < memSize ∧ p.2 ≠ c.resetByte p.1

/-- The bytes of `bs` written at `a`, `a + 1`, ... in order, the lowest address first (R48). -/
def Memory.writeBytes (c : Config) : List Host.Cell → Nat → List Byte → List Host.Cell
  | m, _, [] => m
  | m, a, b :: bs => Memory.writeBytes c (Memory.write c m a b) (a + 1) bs

/-- Light display cell `j`, keeping the indices rising. -/
def Disp.light : List Nat → Nat → List Nat
  | [], j => [j]
  | k :: rest, j => if j < k then j :: k :: rest else k :: Disp.light rest j

/-- Put display cell `j` out. -/
def Disp.putOut : List Nat → Nat → List Nat
  | [], _ => []
  | k :: rest, j => if k = j then Disp.putOut rest j else k :: Disp.putOut rest j

/-- Exclusive-OR of display cell `j` with 0xFF: a lit cell goes off, an off cell is lit. -/
def Disp.toggle (d : List Nat) (j : Nat) : List Nat :=
  if d.contains j then Disp.putOut d j else Disp.light d j

/-- The canonical form of the display: the lit cells, strictly rising, each one of the 2048. -/
abbrev Disp.wf (d : List Nat) : Prop := d.Pairwise (· < ·) ∧ ∀ j ∈ d, j < dispW * dispH

end Sys2Proof.Machine
end

