-- ==== Sys2Proof/Machine/Ops.lean ====
section
/-!
DEFINITION. The named operations over the state: registers, `pc`, `I`, the stack, memory, the display, the
timers (00_scope.md R7), the parts of the outside interface that are functions of the state (10_state.md R26),
taking a fault, and leaving the halted state.
-/

namespace Sys2Proof.Machine

/-- What a step answers. -/
abbrev Out := Host.Outcome State Fault Refusal

/-- The index of `VF`, the flag register (10_state.md R11). -/
abbrev VF : Nibble := 15

/-! ### Registers -/

/-- Read of `V[x]` (R10). -/
def State.reg (s : State) (x : Nibble) : Byte := s.V[x.toNat]'x.isLt

/-- `V[x] <- v` (R10). -/
def State.setReg (s : State) (x : Nibble) (v : Byte) : State :=
  { s with V := s.V.set x.toNat v x.isLt }

/-- `pc <- t` (10_state.md R12). -/
def State.setPc (s : State) (t : Word) : State := { s with pc := t }

/-- The increment at fetch: `pc <- a + 2` before the instruction acts (10_state.md R13, R24). -/
def State.advance (s : State) : State := s.setPc (s.pc + 2)

/-- A skip: 2 more on `pc` where the condition holds (40_control_transfer.md R89). -/
def State.skipIf (s : State) (c : Bool) : State := if c then s.setPc (s.pc + 2) else s

/-- `I <- v` (10_state.md R15). -/
def State.setI (s : State) (v : Word) : State := { s with I := v }

/-- `DT <- v` (10_state.md R18). -/
def State.setDT (s : State) (v : Byte) : State := { s with DT := v }

/-- `ST <- v` (10_state.md R18). -/
def State.setST (s : State) (v : Byte) : State := { s with ST := v }

/-! ### The call stack (10_state.md R17) -/

/-- `push(v)`: append to the end. -/
def State.push (s : State) (v : Word) : State := { s with stack := s.stack ++ [v] }

/-- The stack less its last entry. -/
def State.dropTop (s : State) : State := { s with stack := s.stack.dropLast }

/-- Whether a CALL finds the stack at a finite `STACK_LIMIT` (40_control_transfer.md R83). -/
def State.stackFull (s : State) : Bool := s.cfg.stackLimit == some s.stack.length

/-! ### Memory (20_memory.md) -/

/-- `MemRead(a, 1)`. -/
def State.readByte (s : State) (a : Nat) : Byte := Memory.read s.cfg s.mem a

/-- `MemWrite(a, 1, b)`. -/
def State.writeByte (s : State) (a : Nat) (b : Byte) : State :=
  { s with mem := Memory.write s.cfg s.mem a b }

/-- `MemWrite` of several bytes from `a` upwards, one byte at a time (R48). -/
def State.writeBytes (s : State) (a : Nat) (bs : List Byte) : State :=
  { s with mem := Memory.writeBytes s.cfg s.mem a bs }

/-- The registers `V[0]` to `V[k-1]`, in order (42_index_memory.md R124). -/
def State.lowRegs (s : State) : Nat → List Byte
  | 0 => []
  | k + 1 => s.lowRegs k ++ [s.reg (BitVec.ofNat 4 k)]

/-- `V[i] <- MemRead(a + i, 1)` for `i` from 0 to `k - 1`, in order (42_index_memory.md R125). -/
def State.loadRegs (s : State) (a : Nat) : Nat → State
  | 0 => s
  | k + 1 => (s.loadRegs a k).setReg (BitVec.ofNat 4 k) (s.readByte (a + k))

/-- The word the fetch reads: the byte at `pc` is the high byte (20_memory.md R46, 10_state.md R24). -/
def State.fetchWord (s : State) : Word :=
  wordOfBytes (s.readByte s.pc.toNat) (s.readByte (s.pc.toNat + 1))

/-! ### The display (10_state.md R20, 43_display.md R132) -/

/-- Whether display cell `j` is lit. -/
def State.isLit (s : State) (j : Nat) : Bool := s.disp.contains j

/-- `disp[j]`: 0xFF if lit, else 0x00 (R20). -/
def State.cell (s : State) (j : Nat) : Byte := if s.isLit j then 0xFF else 0x00

/-- Every cell off (43_display.md R130). -/
def State.clearDisp (s : State) : State := { s with disp := [] }

/-- A display and the collision bit of a draw under way. -/
abbrev Canvas := List Nat × Bool

/-- One pixel of a sprite at cell `(cx, cy)` (43_display.md R131): where the sprite's bit is 1 and the cell is on
the screen, note a collision if the cell is lit and exclusive-OR it with 0xFF. -/
def drawPixel (bit : Bool) (cx cy : Nat) (p : Canvas) : Canvas :=
  if bit ∧ cx ≤ 63 ∧ cy ≤ 31 then
    (Disp.toggle p.1 (cx + 64 * cy), p.2 || p.1.contains (cx + 64 * cy))
  else p

/-- Columns 0 to `k - 1` of a sprite row `b` at `(x0, cy)`: column `c` is bit `7 - c` (R132). -/
def drawColumns (b : Byte) (x0 cy : Nat) : Nat → Canvas → Canvas
  | 0, p => p
  | c + 1, p => drawPixel (b.getLsbD (7 - c)) (x0 + c) cy (drawColumns b x0 cy c p)

/-- Rows 0 to `k - 1` of the sprite at `I`, drawn from the top (R131). -/
def State.drawRows (s : State) (x0 y0 : Nat) : Nat → Canvas
  | 0 => (s.disp, false)
  | r + 1 => drawColumns (s.readByte (s.I.toNat + r)) x0 (y0 + r) 8 (s.drawRows x0 y0 r)

/-- The display after a draw. -/
def State.setDisp (s : State) (d : List Nat) : State := { s with disp := d }

/-! ### Keys (10_state.md R19) -/

/-- Read of `key[k]`. -/
def State.keyHeld (s : State) (k : Nibble) : Bool := s.key[k.toNat]'k.isLt

/-- `key[k] <- b` (60_exceptions.md R160). -/
def State.setKey (s : State) (k : Nibble) (b : Bool) : State :=
  { s with key := s.key.set k.toNat b k.isLt }

/-- The least `k < 16` with `key[k]` down, if any (44_keys_timers.md R143). -/
def State.lowestKey (s : State) : Option Nat :=
  (List.range 16).find? fun k => s.keyHeld (BitVec.ofNat 4 k)

/-! ### The random source (60_exceptions.md R162) -/

/-- The random byte supplied to this execution of RND: a free value (log entry 1). -/
def State.rndByte (s : State) : Byte := Config.rnd s.draws

/-- The next RND takes the next byte. -/
def State.nextDraw (s : State) : State := { s with draws := s.draws + 1 }

/-! ### Faults (60_exceptions.md R150 to R154) -/

/-- The code of a cause, 3 bits (R150, 10_state.md R27). -/
def Cause.code : Cause → BitVec 3
  | .unknownOpcode => 1
  | .stackUnderflow => 2
  | .fetchOutOfRange => 3
  | .memOutOfRange => 4
  | .keyIndexOutOfRange => 5
  | .stackOverflow => 6

/-- TAKING A FAULT (R151, R152), of the state at the start of the step: nothing changes but the record of the
cause, the word and the address of the instruction, `pc`. -/
def State.raise (s : State) (cause : Cause) (w : Word) : Out :=
  .next { s with fault := some ⟨cause, w, s.pc⟩ }

/-- Whether a fault is recorded: the machine is halted (R151). -/
def State.halted (s : State) : Bool := s.fault.isSome

/-- LEAVING THE HALTED STATE, or any other: `StateRestore(m)` (R164, R154). The parameters, the random source and
the schedule are no part of the state the spec copies (log entry 20). -/
def State.restore (s : State) (m : MachineState) : State := { s with toMachineState := m }

/-- The state `Reset(image)` makes of an image that fits (70_reset_and_hazards.md R180). -/
def State.loaded (s : State) (image : List Byte) : State :=
  { s with toMachineState :=
      { MachineState.reset with mem := Memory.writeBytes s.cfg [] progBase image } }

/-! ### The pulse ports, and the read-out ports (10_state.md R26) -/

/-- Drive a pulse, or none. -/
def State.emit (s : State) (p : Option Signal) : State := { s with signal := p }

/-- `display_out`: the 2048 bytes `DisplayRead` returns (60_exceptions.md R161). -/
def State.displayOut (s : State) : List Byte := (List.range 2048).map s.cell

/-- `state_out`: the copy `StateRead` returns (R164). -/
def State.stateOut (s : State) : MachineState := s.toMachineState

/-- `fault_out`: cause code, word and address where a fault is recorded (10_state.md R26, R22). -/
def State.faultOut (s : State) : Option (BitVec 3 × Word × Word) :=
  s.fault.map fun r => (r.cause.code, r.word, r.addr)

end Sys2Proof.Machine
end

