-- ==== Sys2Proof/Machine/Devices.lean ====
section
/-!
DEFINITION. The steps of the timer engine and of the host (60_exceptions.md R158 to R164,
70_reset_and_hazards.md R180, R181), each a function of the state.
-/

namespace Sys2Proof.Machine

/-- A timer after a tick: one less, clamped at 0 (R158). -/
def tickDown (v : Byte) : Byte := if v.toNat > 0 then v - 1 else v

/-- `SoundEdges()` of R159, on the timers after the tick. -/
def soundEdges (s : State) : State :=
  if s.ST.toNat > 0 ∧ s.soundPlaying = false then
    { s.emit (some .soundStart) with soundPlaying := true }
  else if s.ST = 0 ∧ s.soundPlaying = true then
    { s.emit (some .soundStop) with soundPlaying := false }
  else s

/-- `TimerTick` of R158 on a machine that is not halted; a halted machine has no such step (R151) and is left as
it is (log entry 6). -/
def timerTick (s : State) : State :=
  if s.halted then s else soundEdges ((s.setDT (tickDown s.DT)).setST (tickDown s.ST))

/-- `KeyDown(k)` (R160). -/
def hostKeyDown (k : Nibble) (s : State) : State := s.setKey k true

/-- `KeyUp(k)` (R160). -/
def hostKeyUp (k : Nibble) (s : State) : State := s.setKey k false

/-- `DisplayRead` (R161): returns `displayOut`, changes nothing. -/
def hostDisplayRead (s : State) : State := s

/-- `StateRead` (R164): returns `stateOut`, changes nothing. -/
def hostStateRead (s : State) : State := s

/-- `StateRestore(m)` (R164): no sound edge. -/
def hostStateRestore (m : MachineState) (s : State) : State := s.restore m

/-- `Reset(image)` (R180): an image that does not fit is refused and reported, and nothing changes (R181, U8; log
entry 9). -/
def hostReset (image : List Byte) (s : State) : State :=
  if imageFits image then s.loaded image else s.emit (some .loadError)

end Sys2Proof.Machine
end

