-- ==== Sys2Proof/Machine/Flags.lean ====
section
/-!
DEFINITION. The values written to VF (10_state.md R11) and the arithmetic whose flags they are (41_alu.md).
-/

namespace Sys2Proof.Machine

/-- A flag as VF holds it: 1 or 0 (R11). -/
def flagByte (b : Bool) : Byte := if b then 1 else 0

/-- The carry of `a + b`: the exact sum exceeds 255 (41_alu.md R106). -/
def carryFlag (a b : Byte) : Byte := flagByte (a.toNat + b.toNat > 255)

/-- The complement of the borrow of `a - b`: 0 exactly when `a < b` (R107, R108, conflict C1). -/
def notBorrowFlag (a b : Byte) : Byte := flagByte (¬ a.toNat < b.toNat)

/-- The bit a right shift moves out: bit 0 (R109). -/
def lowBitFlag (v : Byte) : Byte := flagByte (v.getLsbD 0)

/-- The bit a left shift moves out: bit 7 (R110). -/
def highBitFlag (v : Byte) : Byte := flagByte (v.getLsbD 7)

end Sys2Proof.Machine
end

