-- ==== Sys2Proof/Machine/Operands.lean ====
section
/-!
DEFINITION. The operand forms (30_encoding.md R62, 42_index_memory.md R126, 43_display.md R131,
44_keys_timers.md R140): how an instruction's fields and the state give the values it works on.
-/

namespace Sys2Proof.Machine

/-- `zext_16(nnn)`: an immediate address in 16 bits (30_encoding.md R62). -/
def absTarget (nnn : Addr12) : Word := nnn.setWidth 16

/-- `nnn + V[0]`, not reduced: at most 0x10FE in 16 bits (40_control_transfer.md R82). -/
def State.offsetTarget (s : State) (nnn : Addr12) : Word := nnn.setWidth 16 + (s.reg 0).setWidth 16

/-- `V[x]` zero-extended to 16 bits. -/
def State.regWord (s : State) (x : Nibble) : Word := (s.reg x).setWidth 16

/-- The effective address `I + i`, a natural number that does not wrap (42_index_memory.md R126). -/
def State.ea (s : State) (i : Nat) : Nat := s.I.toNat + i

/-- Whether an instruction that touches the `k` bytes from `I` up reaches above address 4095 (20_memory.md
R45); an instruction that touches none does not. -/
def State.beyondMemory (s : State) (k : Nat) : Bool := k > 0 ∧ s.ea (k - 1) > 4095

/-- The address of glyph `v`: `v × 5`, exact in 16 bits (42_index_memory.md R122). -/
def glyphAddr (v : Byte) : Word := v.setWidth 16 * 5

/-- The decimal digits of a byte, hundreds, tens, units (42_index_memory.md R123). -/
def bcdDigits (v : Byte) : List Byte := [v / 100, (v / 10) % 10, v % 10]

/-- The column of a sprite's origin, `V[x] mod 64` (43_display.md R131). -/
def State.originX (s : State) (x : Nibble) : Nat := (s.reg x).toNat % 64

/-- The row of a sprite's origin, `V[y] mod 32` (43_display.md R131). -/
def State.originY (s : State) (y : Nibble) : Nat := (s.reg y).toNat % 32

/-- The key a register selects: its value, if it is a key index 0 to 15 (44_keys_timers.md R140). -/
def State.keyIndex (s : State) (x : Nibble) : Option Nibble :=
  if (s.reg x).toNat > 15 then none else some ((s.reg x).setWidth 4)

end Sys2Proof.Machine
end

