-- ==== Sys2Proof/Machine/Alu.lean ====
section
/-!
DEFINITION. Register loads, arithmetic, logic, shifts and random (41_alu.md). None can fault (R112).
-/

namespace Sys2Proof.Machine

/-- A result written to `V[x]` and no flag (R114). -/
def State.result (s : State) (x : Nibble) (v : Byte) : Out := .next (s.advance.setReg x v)

/-- A result written to `V[x]` first and a flag to `VF` last, so that with `x = 15` the flag stays (R113, D7). -/
def State.resultFlag (s : State) (x : Nibble) (v f : Byte) : Out :=
  .next ((s.advance.setReg x v).setReg VF f)

/-- A shift by one in classic mode: the three writes of R109 and R110 in the source's order, each seeing the one
before (D32): `V[x] <- V[y]`, `VF <-` the bit of `V[x]` to be shifted out, `V[x] <-` the shifted `V[x]`. -/
def State.shiftBy (s : State) (x y : Nibble) (flag shift : Byte → Byte) : Out :=
  let s1 := s.advance.setReg x (s.reg y)
  let s2 := s1.setReg VF (flag (s1.reg x))
  .next (s2.setReg x (shift (s2.reg x)))

/-- `LD Vx, kk` (R100). -/
def execLdImm (x : Nibble) (kk : Byte) (s : State) : Out := s.result x kk

/-- `ADD Vx, kk` (R101): wraps, no flag. -/
def execAddImm (x : Nibble) (kk : Byte) (s : State) : Out := s.result x (s.reg x + kk)

/-- `LD Vx, Vy` (R102). -/
def execLdReg (x y : Nibble) (s : State) : Out := s.result x (s.reg y)

/-- `OR Vx, Vy` (R103). -/
def execOrReg (x y : Nibble) (s : State) : Out := s.result x (s.reg x ||| s.reg y)

/-- `AND Vx, Vy` (R104). -/
def execAndReg (x y : Nibble) (s : State) : Out := s.result x (s.reg x &&& s.reg y)

/-- `XOR Vx, Vy` (R105). -/
def execXorReg (x y : Nibble) (s : State) : Out := s.result x (s.reg x ^^^ s.reg y)

/-- `ADD Vx, Vy` (R106): `VF` is the carry. -/
def execAddReg (x y : Nibble) (s : State) : Out :=
  s.resultFlag x (s.reg x + s.reg y) (carryFlag (s.reg x) (s.reg y))

/-- `SUB Vx, Vy` (R107): `VF` is the complement of the borrow of `V[x] - V[y]`. -/
def execSubReg (x y : Nibble) (s : State) : Out :=
  s.resultFlag x (s.reg x - s.reg y) (notBorrowFlag (s.reg x) (s.reg y))

/-- `SUBN Vx, Vy` (R108): the same of `V[y] - V[x]`. -/
def execSubnReg (x y : Nibble) (s : State) : Out :=
  s.resultFlag x (s.reg y - s.reg x) (notBorrowFlag (s.reg y) (s.reg x))

/-- `SHR Vx, Vy` (R109). -/
def execShr (x y : Nibble) (s : State) : Out := s.shiftBy x y lowBitFlag (fun v => v >>> 1)

/-- `SHL Vx, Vy` (R110). -/
def execShl (x y : Nibble) (s : State) : Out := s.shiftBy x y highBitFlag (fun v => v <<< 1)

/-- `RND Vx, kk` (R111): the random byte is a free value. -/
def execRnd (x : Nibble) (kk : Byte) (s : State) : Out := s.nextDraw.result x (s.rndByte &&& kk)

end Sys2Proof.Machine
end

