-- ==== Sys2Proof/Machine/Control.lean ====
section
/-!
DEFINITION. The control transfer instructions (40_control_transfer.md). Each meaning takes the state before the
fetch, whose `pc` is the address `a` of the instruction.
-/

namespace Sys2Proof.Machine

/-- `RET` (R80). -/
def execRet (s : State) : Out :=
  match s.stack.getLast? with
  | none => s.raise .stackUnderflow (encode .ret)
  | some t => .next (s.dropTop.setPc t)

/-- `JP nnn` (R81). -/
def execJp (nnn : Addr12) (s : State) : Out := .next (s.setPc (absTarget nnn))

/-- `JP V0, nnn` (R82): no reduction to 12 bits (D33). -/
def execJpV0 (nnn : Addr12) (s : State) : Out := .next (s.setPc (s.offsetTarget nnn))

/-- `CALL nnn` (R83): pushes `a + 2`. -/
def execCall (nnn : Addr12) (s : State) : Out :=
  if s.stackFull then s.raise .stackOverflow (encode (.call nnn))
  else .next ((s.push s.advance.pc).setPc (absTarget nnn))

/-- `SE Vx, kk` (R84). -/
def execSeImm (x : Nibble) (kk : Byte) (s : State) : Out := .next (s.advance.skipIf (s.reg x == kk))

/-- `SNE Vx, kk` (R85). -/
def execSneImm (x : Nibble) (kk : Byte) (s : State) : Out := .next (s.advance.skipIf (s.reg x != kk))

/-- `SE Vx, Vy` (R86). -/
def execSeReg (x y : Nibble) (s : State) : Out := .next (s.advance.skipIf (s.reg x == s.reg y))

/-- `SNE Vx, Vy` (R87). -/
def execSneReg (x y : Nibble) (s : State) : Out := .next (s.advance.skipIf (s.reg x != s.reg y))

end Sys2Proof.Machine
end

