-- ==== Sys2Proof/Machine/Display.lean ====
section
/-!
DEFINITION. The display instructions (43_display.md).
-/

namespace Sys2Proof.Machine

/-- `CLS` (R130). -/
def execCls (s : State) : Out := .next s.advance.clearDisp

/-- `DRW Vx, Vy, n` (R131): the origin wraps, the body clips; `VF` is written last and always (D8, D9). -/
def execDrw (x y n : Nibble) (s : State) : Out :=
  if s.beyondMemory n.toNat then s.raise .memOutOfRange (encode (.drw x y n))
  else
    let p := s.drawRows (s.originX x) (s.originY y) n.toNat
    .next ((s.advance.setDisp p.1).setReg VF (flagByte p.2))

end Sys2Proof.Machine
end

