-- ==== Sys2Proof/Machine/IndexMem.lean ====
section
/-!
DEFINITION. The index register and memory instructions (42_index_memory.md). None changes `VF` as a flag, and no
load or store changes `I` (R126, D10).
-/

namespace Sys2Proof.Machine

/-- `LD I, nnn` (R120). -/
def execLdI (nnn : Addr12) (s : State) : Out := .next (s.advance.setI (absTarget nnn))

/-- `ADD I, Vx` (R121): modulo 65536, no flag. -/
def execAddI (x : Nibble) (s : State) : Out := .next (s.advance.setI (s.I + s.regWord x))

/-- `LD F, Vx` (R122). -/
def execLdF (x : Nibble) (s : State) : Out := .next (s.advance.setI (glyphAddr (s.reg x)))

/-- `LD B, Vx` (R123). -/
def execLdB (x : Nibble) (s : State) : Out :=
  if s.beyondMemory 3 then s.raise .memOutOfRange (encode (.ldB x))
  else .next (s.advance.writeBytes (s.ea 0) (bcdDigits (s.reg x)))

/-- `LD [I], Vx` (R124): `x + 1` registers, `x` the field of the word (D11). -/
def execLdMemVx (x : Nibble) (s : State) : Out :=
  if s.beyondMemory (x.toNat + 1) then s.raise .memOutOfRange (encode (.ldMemVx x))
  else .next (s.advance.writeBytes (s.ea 0) (s.lowRegs (x.toNat + 1)))

/-- `LD Vx, [I]` (R125). -/
def execLdVxMem (x : Nibble) (s : State) : Out :=
  if s.beyondMemory (x.toNat + 1) then s.raise .memOutOfRange (encode (.ldVxMem x))
  else .next (s.advance.loadRegs (s.ea 0) (x.toNat + 1))

end Sys2Proof.Machine
end

