-- ==== Sys2Proof/Machine/KeysTimers.lean ====
section
/-!
DEFINITION. The keypad and timer instructions (44_keys_timers.md).
-/

namespace Sys2Proof.Machine

/-- `SKP Vx` (R140). -/
def execSkp (x : Nibble) (s : State) : Out :=
  match s.keyIndex x with
  | none => s.raise .keyIndexOutOfRange (encode (.skp x))
  | some k => .next (s.advance.skipIf (s.keyHeld k))

/-- `SKNP Vx` (R141). -/
def execSknp (x : Nibble) (s : State) : Out :=
  match s.keyIndex x with
  | none => s.raise .keyIndexOutOfRange (encode (.sknp x))
  | some k => .next (s.advance.skipIf (!s.keyHeld k))

/-- `LD Vx, DT` (R142). -/
def execLdVxDt (x : Nibble) (s : State) : Out := .next (s.advance.setReg x s.DT)

/-- `LD Vx, K` (R143): with no key down `pc` goes back to the instruction, net change zero. -/
def execLdVxK (x : Nibble) (s : State) : Out :=
  match s.lowestKey with
  | some k => .next (s.advance.setReg x (BitVec.ofNat 8 k))
  | none => .next (s.advance.setPc (s.advance.pc - 2))

/-- `LD DT, Vx` (R144). -/
def execLdDtVx (x : Nibble) (s : State) : Out := .next (s.advance.setDT (s.reg x))

/-- `LD ST, Vx` (R145): no sound edge here. -/
def execLdStVx (x : Nibble) (s : State) : Out := .next (s.advance.setST (s.reg x))

end Sys2Proof.Machine
end

