-- ==== Sys2Proof/Machine/Cycle.lean ====
section
/-!
DEFINITION. The instruction step (10_state.md R24) and the choice of the agent that steps next (R23).
-/

namespace Sys2Proof.Machine

/-- `InstrStep` of R24 on a machine that is not halted: range check, fetch, decode, execute. The meaning of the
instruction adds the 2 to `pc` and, where it faults, leaves `pc` as it was (60_exceptions.md R152). -/
def instrStep (s : State) : Out :=
  if s.pc.toNat > 4094 then s.raise .fetchOutOfRange 0
  else
    match decode s.fetchWord with
    | .unknown w => s.raise .unknownOpcode w
    | .instr i => exec i s

/-- One scheduled step of an agent (R23). A tick of a halted machine is no step and changes nothing (60_exceptions.md
R151; log entry 6). -/
def runEvent (e : Event) (s : State) : Out :=
  match e with
  | .instrTick => if s.halted then .next s else instrStep s
  | .timerTick => .next (timerTick s)
  | .keyDown k => .next (hostKeyDown k s)
  | .keyUp k => .next (hostKeyUp k s)
  | .displayRead => .next (hostDisplayRead s)
  | .stateRead => .next (hostStateRead s)
  | .stateRestore m => .next (hostStateRestore m s)
  | .reset image => .next (hostReset image s)

/-- The next step of the machine: the oldest scheduled step, or, where none is scheduled, an instruction step;
a halted machine with nothing scheduled is stuck. A pulse of the step before has ended (00_scope.md R7). -/
def nextStep (s : State) : Out :=
  match s.schedule with
  | [] => if s.halted then .fault .halted else instrStep (s.emit none)
  | e :: rest => runEvent e { s.emit none with schedule := rest }

/-- The state with the word `w` at `pc`, ready to be fetched at once: its two bytes in memory, nothing scheduled,
no fault recorded, and a `pc` that can be fetched from (log entry 10). -/
def placeWord (s : State) (w : Word) : State :=
  let s1 := { s with schedule := [], fault := none, pc := if s.pc.toNat > 4094 then 0x200 else s.pc }
  s1.writeBytes s1.pc.toNat [hiByte w, loByte w]

end Sys2Proof.Machine
end

