-- ==== Sys2Proof/Machine/Step.lean ====
section
/-!
DEFINITION. One step of the machine, and the state the host builds to run one word.
-/

namespace Sys2Proof.Machine

/-- One step: `nextStep` (10_state.md R23, R24). -/
def step (s : State) : Host.Outcome State Fault Refusal := nextStep s

/-- `s` with the opcode-table word `w` of `nbits` bits placed where `step` fetches next, so that the very next step
runs it (log entry 10). -/
def State.withFetchWord (s : State) (nbits w : Nat) : State := placeWord s (tableWord nbits w)

end Sys2Proof.Machine
end

