-- ==== Sys2Proof/Safety.lean ====
section
/-!
DEFINITION. The terms in which statements about the machine are made: what a step leaves unchanged, the
invariant of the model's lists, the sprite of a draw, the sound edges along a run, and the end of a run.
-/

namespace Sys2Proof.Machine

/-! ### Frames -/

/-- The pieces of the state: the rows of 10_state.md section 1, and the model's own four fields. -/
inductive Part where
  | regs | pc | index | stack | delay | sound | keys | display | memory | playing | fault
  | draws | config | schedule | signal
deriving DecidableEq, Repr

/-- A piece reads the same in both states: registers, key flags, display cells and bytes of memory one by one,
through the model's reads. -/
def Keeps : Part → State → State → Prop
  | .regs, s, t => ∀ r : Nibble, t.reg r = s.reg r
  | .pc, s, t => t.pc = s.pc
  | .index, s, t => t.I = s.I
  | .stack, s, t => t.stack = s.stack
  | .delay, s, t => t.DT = s.DT
  | .sound, s, t => t.ST = s.ST
  | .keys, s, t => ∀ k : Nibble, t.keyHeld k = s.keyHeld k
  | .display, s, t => ∀ j : Nat, t.cell j = s.cell j
  | .memory, s, t => ∀ a : Nat, t.readByte a = s.readByte a
  | .playing, s, t => t.soundPlaying = s.soundPlaying
  | .fault, s, t => t.fault = s.fault
  | .draws, s, t => t.draws = s.draws
  | .config, s, t => t.cfg = s.cfg
  | .schedule, s, t => t.schedule = s.schedule
  | .signal, s, t => t.signal = s.signal

/-- Everything but the named pieces is unchanged from `s` to `t`. -/
def FrameBut (changed : List Part) (s t : State) : Prop := ∀ p, p ∉ changed → Keeps p s t

/-- Every register but those named is unchanged. -/
def RegsBut (changed : List Nibble) (s t : State) : Prop := ∀ r, r ∉ changed → t.reg r = s.reg r

/-- The state a faulting step leaves: only the record is new (60_exceptions.md R152). -/
def State.faulted (s : State) (cause : Cause) (w : Word) : State :=
  { s with fault := some ⟨cause, w, s.pc⟩ }

/-! ### What each instruction may write -/

/-- The pieces an instruction may write besides `pc` and the fault record (10_state.md section 1, column "Written
by"). -/
def instrWrites : Instr → List Part
  | .cls => [.display]
  | .ret | .call _ => [.stack]
  | .jp _ | .jpV0 _ => []
  | .seImm _ _ | .sneImm _ _ | .seReg _ _ | .sneReg _ _ => []
  | .skp _ | .sknp _ => []
  | .ldImm _ _ | .addImm _ _ | .ldReg _ _ | .orReg _ _ | .andReg _ _ | .xorReg _ _ => [.regs]
  | .addReg _ _ | .subReg _ _ | .shr _ _ | .subnReg _ _ | .shl _ _ => [.regs]
  | .rnd _ _ => [.regs, .draws]
  | .drw _ _ _ => [.display, .regs]
  | .ldVxDt _ | .ldVxK _ | .ldVxMem _ => [.regs]
  | .ldDtVx _ => [.delay]
  | .ldStVx _ => [.sound]
  | .ldI _ | .addI _ | .ldF _ => [.index]
  | .ldB _ | .ldMemVx _ => [.memory]

/-- The registers an instruction may write: its destination, and `VF` for the six instructions of 10_state.md
R11. -/
def instrDestRegs : Instr → List Nibble
  | .ldImm x _ | .addImm x _ | .ldReg x _ | .orReg x _ | .andReg x _ | .xorReg x _ | .rnd x _ => [x]
  | .addReg x _ | .subReg x _ | .shr x _ | .subnReg x _ | .shl x _ => [x, VF]
  | .drw _ _ _ => [VF]
  | .ldVxDt x | .ldVxK x => [x]
  | .ldVxMem x => (List.range (x.toNat + 1)).map (BitVec.ofNat 4)
  | .cls | .ret | .jp _ | .call _ | .jpV0 _ => []
  | .seImm _ _ | .sneImm _ _ | .seReg _ _ | .sneReg _ _ | .skp _ | .sknp _ => []
  | .ldDtVx _ | .ldStVx _ | .ldI _ | .addI _ | .ldF _ | .ldB _ | .ldMemVx _ => []

/-- The one fault an instruction can raise in its execution, if any (60_exceptions.md R150, R153). -/
def instrFaultCause : Instr → Option Cause
  | .ret => some .stackUnderflow
  | .call _ => some .stackOverflow
  | .drw _ _ _ | .ldB _ | .ldMemVx _ | .ldVxMem _ => some .memOutOfRange
  | .skp _ | .sknp _ => some .keyIndexOutOfRange
  | .cls | .jp _ | .jpV0 _ | .seImm _ _ | .sneImm _ _ | .seReg _ _ | .sneReg _ _ => none
  | .ldImm _ _ | .addImm _ _ | .ldReg _ _ | .orReg _ _ | .andReg _ _ | .xorReg _ _ | .rnd _ _ => none
  | .addReg _ _ | .subReg _ _ | .shr _ _ | .subnReg _ _ | .shl _ _ => none
  | .ldVxDt _ | .ldVxK _ | .ldDtVx _ | .ldStVx _ | .ldI _ | .addI _ | .ldF _ => none

/-- Whether an instruction reads the key flags (10_state.md R19). -/
def instrReadsKeys : Instr → Bool
  | .skp _ | .sknp _ | .ldVxK _ => true
  | .cls | .ret | .jp _ | .call _ | .jpV0 _ | .seImm _ _ | .sneImm _ _ | .seReg _ _ | .sneReg _ _ => false
  | .ldImm _ _ | .addImm _ _ | .ldReg _ _ | .orReg _ _ | .andReg _ _ | .xorReg _ _ | .rnd _ _ => false
  | .addReg _ _ | .subReg _ _ | .shr _ _ | .subnReg _ _ | .shl _ _ | .drw _ _ _ => false
  | .ldVxDt _ | .ldDtVx _ | .ldStVx _ | .ldI _ | .addI _ | .ldF _ | .ldB _ | .ldMemVx _ | .ldVxMem _ => false

/-- The table of 10_state.md R13: `pc` at the end `t` of a step of `i` from `s` that does not fault, as natural
numbers; for a CALL also what is pushed. -/
def pcRule (i : Instr) (s t : State) : Prop :=
  match i with
  | .seImm x kk => t.pc.toNat = s.pc.toNat + if s.reg x = kk then 4 else 2
  | .sneImm x kk => t.pc.toNat = s.pc.toNat + if s.reg x ≠ kk then 4 else 2
  | .seReg x y => t.pc.toNat = s.pc.toNat + if s.reg x = s.reg y then 4 else 2
  | .sneReg x y => t.pc.toNat = s.pc.toNat + if s.reg x ≠ s.reg y then 4 else 2
  | .skp x => ∃ k : Nibble, k.toNat = (s.reg x).toNat ∧
      t.pc.toNat = s.pc.toNat + if s.keyHeld k then 4 else 2
  | .sknp x => ∃ k : Nibble, k.toNat = (s.reg x).toNat ∧
      t.pc.toNat = s.pc.toNat + if s.keyHeld k then 2 else 4
  | .jp nnn => t.pc.toNat = nnn.toNat
  | .jpV0 nnn => t.pc.toNat = nnn.toNat + (s.reg 0).toNat
  | .call nnn => t.pc.toNat = nnn.toNat ∧
      ∃ a : Word, a.toNat = s.pc.toNat + 2 ∧ t.stack = s.stack ++ [a]
  | .ret => s.stack = t.stack ++ [t.pc]
  | .ldVxK _ => ((∃ k, s.keyHeld k = true) → t.pc.toNat = s.pc.toNat + 2) ∧
      ((∀ k, s.keyHeld k = false) → t.pc = s.pc)
  | .cls | .ldImm _ _ | .addImm _ _ | .ldReg _ _ | .orReg _ _ | .andReg _ _ | .xorReg _ _
  | .addReg _ _ | .subReg _ _ | .shr _ _ | .subnReg _ _ | .shl _ _ | .rnd _ _ | .drw _ _ _
  | .ldVxDt _ | .ldDtVx _ | .ldStVx _ | .ldI _ | .addI _ | .ldF _ | .ldB _ | .ldMemVx _ | .ldVxMem _ =>
    t.pc.toNat = s.pc.toNat + 2

/-! ### The invariant -/

/-- A copy of the state holds its memory and its display in canonical form. -/
abbrev MachineState.wf (c : Config) (m : MachineState) : Prop := Memory.wf c m.mem ∧ Disp.wf m.disp

/-- A scheduled restore brings a state in canonical form. -/
def Event.wf (c : Config) : Event → Prop
  | .stateRestore m => m.wf c
  | _ => True

/-- The invariant of the model: memory lists rising addresses below 4096 and no byte equal to the reset contents,
the display lists rising cells below 2048, and so does every state a scheduled restore brings. -/
def State.Inv (s : State) : Prop :=
  s.toMachineState.wf s.cfg ∧ ∀ e ∈ s.schedule, e.wf s.cfg

/-! ### Draws -/

/-- The sprite of `n` rows at `I`, drawn with its corner at `(x0, y0)`, has a 1 bit on display cell `j`: row `r` is
the byte at `I + r`, column `c` its bit `7 - c`, and a pixel off the screen is on no cell (43_display.md R131,
R132). -/
def State.spriteOn (s : State) (x0 y0 n j : Nat) : Prop :=
  ∃ r c, r < n ∧ c < 8 ∧ (s.readByte (s.I.toNat + r)).getLsbD (7 - c) = true ∧
    x0 + c ≤ 63 ∧ y0 + r ≤ 31 ∧ j = (x0 + c) + 64 * (y0 + r)

/-! ### Runs -/

/-- The steps other than `Reset` and `StateRestore`, which alone change `sound_playing` without an edge
(60_exceptions.md R159). -/
def Event.ordinary : Event → Bool
  | .stateRestore _ => false
  | .reset _ => false
  | _ => true

/-- The pulses driven along the first `k` steps, oldest first. -/
def signalsAlong : Nat → State → List Signal
  | 0, _ => []
  | k + 1, s =>
    match step s with
    | .next t => t.signal.toList ++ signalsAlong k t
    | _ => []

/-- Start and stop edges in turn, nothing else, a stop first exactly if the sound plays now. -/
def alternates : Bool → List Signal → Prop
  | _, [] => True
  | playing, .soundStart :: rest => playing = false ∧ alternates true rest
  | playing, .soundStop :: rest => playing = true ∧ alternates false rest
  | _, .loadError :: _ => False

/-- The end of a run (70_reset_and_hazards.md R189): no fault is recorded and the next instruction is a jump to
itself. -/
def State.endedWell (s : State) : Prop :=
  s.fault = none ∧ s.pc.toNat ≤ 4094 ∧ s.fetchWord = 0x1000 + s.pc

end Sys2Proof.Machine
end

