-- ==== Sys2Proof/Certificates/Slice0/Obligations.lean ====
section
/-!
DEFINITION. The statements for the provers. Each docstring names the rule or the section it rests on; where a
clause rests on a decision the spec marks as its own (D<n> of 92_eei_decisions.md) or on a log entry, it says so.
-/

open Sys2Proof Sys2Proof.Machine

/-! ### Encoding -/

/-- 30_encoding.md, "Round trip": decoding the two bytes of an encoded instruction, high byte first, gives the
instruction back, for every instruction and every operand value, and leaves the bytes after it. -/
def Obligations.EncodeThenDecodeGivesTheInstruction : Prop :=
  ∀ (i : Instr) (rest : List Byte),
    decode (encode i) = .instr i ∧
    decodeBytes (hiByte (encode i) :: loByte (encode i) :: rest) = some (.instr i, rest)

/-- 30_encoding.md, "Round trip", the other direction: each word that is not unknown is the encoding of what it
decodes to. -/
def Obligations.DecodeThenEncodeGivesTheWord : Prop :=
  ∀ (w : Word) (i : Instr), decode w = .instr i → encode i = w

/-- 30_encoding.md, the opcode map (bit patterns adopted by the spec's decision D36): a word decodes to the
instruction of a row exactly if it matches the row under the row's mask, and no word matches two rows. -/
def Obligations.WordDecodesByItsOpcodeRow : Prop :=
  (∀ (w : Word) (r : OpcodeRow), r ∈ opcodeRows →
    (w &&& r.mask = r.pattern ↔ ∃ i, decode w = .instr i ∧ i.row = r.row)) ∧
  (∀ (w : Word) (r r' : OpcodeRow), r ∈ opcodeRows → r' ∈ opcodeRows →
    w &&& r.mask = r.pattern → w &&& r'.mask = r'.pattern → r = r')

/-- 30_encoding.md section 3 (which words are unknown: the spec's decision D6): a word that matches no row is
unknown. -/
def Obligations.UnmatchedWordIsUnknown : Prop :=
  ∀ w : Word, (∀ r ∈ opcodeRows, w &&& r.mask ≠ r.pattern) → decode w = .unknown w

/-- Words of 95_test_vectors.md section 3, one for each family: W1, W12, W20, W22, W23, W24, W33, and the unknown
words W35, W36. -/
def Obligations.PublishedWordsDecode : Prop :=
  decode 0x00E0 = .instr .cls ∧ decode 0x8AB2 = .instr (.andReg 10 11) ∧
  decode 0xAABC = .instr (.ldI 0xABC) ∧ decode 0xCA7F = .instr (.rnd 10 0x7F) ∧
  decode 0xDAB5 = .instr (.drw 10 11 5) ∧ decode 0xEA9E = .instr (.skp 10) ∧
  decode 0xFA55 = .instr (.ldMemVx 10) ∧ decode 0x0123 = .unknown 0x0123 ∧
  decode 0x5AB1 = .unknown 0x5AB1

/-! ### The step -/

/-- 10_state.md section 11 (`InstrStep`), 20_memory.md section 3: a machine that is not halted, whose two bytes at
`pc` decode to an instruction, high byte first, runs that instruction. What the model's step adds around it: the
pulse of the step before ends, and a scheduled instruction step is taken off the schedule (log entries 2, 8). -/
def Obligations.StepRunsTheDecodedInstruction : Prop :=
  ∀ (s : State) (i : Instr), s.fault = none → s.pc.toNat ≤ 4094 →
    decode (s.readByte s.pc.toNat ++ s.readByte (s.pc.toNat + 1)) = .instr i →
    (s.schedule = [] → step s = exec i { s with signal := none }) ∧
    (∀ rest, s.schedule = .instrTick :: rest →
      step s = exec i { s with signal := none, schedule := rest })

/-- 60_exceptions.md section 1 (the spec's decisions D2, D6, D16): a fetch from above 4094 and an unknown word fault,
and nothing but the record changes in the spec's state, whether the instruction step is the step taken for want of a
scheduled one or is scheduled itself (log entries 2, 8). -/
def Obligations.FetchFaultsRecordTheirCause : Prop :=
  ∀ s : State, s.fault = none →
    (s.pc.toNat > 4094 →
      (s.schedule = [] →
        step s = .next (({ s with signal := none } : State).faulted .fetchOutOfRange 0)) ∧
      (∀ rest, s.schedule = .instrTick :: rest →
        step s = .next (({ s with signal := none, schedule := rest } : State).faulted .fetchOutOfRange 0))) ∧
    (∀ w : Word, s.pc.toNat ≤ 4094 → s.readByte s.pc.toNat ++ s.readByte (s.pc.toNat + 1) = w →
      decode w = .unknown w →
      (s.schedule = [] →
        step s = .next (({ s with signal := none } : State).faulted .unknownOpcode w)) ∧
      (∀ rest, s.schedule = .instrTick :: rest →
        step s = .next (({ s with signal := none, schedule := rest } : State).faulted .unknownOpcode w)))

/-- 60_exceptions.md section 1 (the spec's decisions D16, D17; log entry 6): a halted machine with nothing scheduled is
stuck; a tick that arrives changes nothing; a key event still changes its key flag. -/
def Obligations.HaltedMachineTakesNoStep : Prop :=
  ∀ (s : State) (rest : List Event), s.fault ≠ none →
    (s.schedule = [] → step s = .fault .halted) ∧
    (s.schedule = .instrTick :: rest → step s = .next { s with signal := none, schedule := rest }) ∧
    (s.schedule = .timerTick :: rest → step s = .next { s with signal := none, schedule := rest }) ∧
    (∀ k, s.schedule = .keyDown k :: rest → ∃ t, step s = .next t ∧ t.keyHeld k = true ∧ t.fault = s.fault)

/-- 60_exceptions.md section 1 (log entry 6): a step stops only in a halted machine with nothing scheduled; every other
step answers a next state. -/
def Obligations.StepStopsOnlyWhenHalted : Prop :=
  ∀ s : State, (∃ t, step s = .next t) ∨
    (s.fault ≠ none ∧ s.schedule = [] ∧ step s = .fault .halted)

/-- 41_alu.md and the other instruction files: no instruction is refused and none stops the model: a fault of the spec
is a next state that records it (log entry 6). -/
def Obligations.EveryInstructionAnswersANextState : Prop :=
  ∀ (i : Instr) (s : State), ∃ t, exec i s = .next t

/-! ### Control transfer -/

/-- 40_control_transfer.md section 2, `RET` (the shape of the fault: the spec's decision D16; encoding: D36). -/
def Obligations.RetPopsTheReturnAddress : Prop :=
  decode 0x00EE = .instr .ret ∧
  (∀ s : State, s.stack = [] → exec .ret s = .next (s.faulted .stackUnderflow 0x00EE)) ∧
  (∀ (s : State) (rest : List Word) (a : Word), s.stack = rest ++ [a] →
    ∃ t, exec .ret s = .next t ∧ t.pc = a ∧ t.stack = rest ∧ FrameBut [.pc, .stack] s t)

/-- R81, encoding line included (its bit pattern: the spec's decision D36, log entry 12). -/
def Obligations.JpLoadsItsTarget : Prop :=
  ∀ (nnn : Addr12) (s : State), decode ((0x1 : Nibble) ++ nnn) = .instr (.jp nnn) ∧
    ∃ t, exec (.jp nnn) s = .next t ∧ t.pc.toNat = nnn.toNat ∧ FrameBut [.pc] s t

/-- 40_control_transfer.md section 2, `JP V0, nnn` (no reduction: the spec's decision D33). -/
def Obligations.JpV0AddsV0 : Prop :=
  ∀ (nnn : Addr12) (s : State), decode ((0xB : Nibble) ++ nnn) = .instr (.jpV0 nnn) ∧
    ∃ t, exec (.jpV0 nnn) s = .next t ∧ t.pc.toNat = nnn.toNat + (s.reg 0).toNat ∧ FrameBut [.pc] s t

/-- 40_control_transfer.md section 2, `CALL` (the limit and its fault: the spec's decisions D16, D18, log entry 19;
encoding: D36). -/
def Obligations.CallPushesTheNextAddress : Prop :=
  ∀ (nnn : Addr12) (s : State), decode ((0x2 : Nibble) ++ nnn) = .instr (.call nnn) ∧
    (s.cfg.stackLimit = some s.stack.length →
      exec (.call nnn) s = .next (s.faulted .stackOverflow ((0x2 : Nibble) ++ nnn))) ∧
    (s.cfg.stackLimit ≠ some s.stack.length →
      ∃ t, exec (.call nnn) s = .next t ∧ t.stack = s.stack ++ [s.pc + 2] ∧
        t.pc.toNat = nnn.toNat ∧ FrameBut [.pc, .stack] s t)

/-- R84, R85, encoding lines included (their bit patterns: the spec's decision D36, log entry 12). -/
def Obligations.SkipsOnAnImmediate : Prop :=
  ∀ (x : Nibble) (kk : Byte) (s : State),
    decode ((0x3 : Nibble) ++ x ++ kk) = .instr (.seImm x kk) ∧
    decode ((0x4 : Nibble) ++ x ++ kk) = .instr (.sneImm x kk) ∧
    (∃ t, exec (.seImm x kk) s = .next t ∧
      t.pc = (if s.reg x = kk then s.pc + 4 else s.pc + 2) ∧ FrameBut [.pc] s t) ∧
    (∃ t, exec (.sneImm x kk) s = .next t ∧
      t.pc = (if s.reg x = kk then s.pc + 2 else s.pc + 4) ∧ FrameBut [.pc] s t)

/-- R86, R87, encoding lines included (their bit patterns: the spec's decision D36, log entry 12). -/
def Obligations.SkipsOnARegister : Prop :=
  ∀ (x y : Nibble) (s : State),
    decode ((0x5 : Nibble) ++ x ++ y ++ (0x0 : Nibble)) = .instr (.seReg x y) ∧
    decode ((0x9 : Nibble) ++ x ++ y ++ (0x0 : Nibble)) = .instr (.sneReg x y) ∧
    (∃ t, exec (.seReg x y) s = .next t ∧
      t.pc = (if s.reg x = s.reg y then s.pc + 4 else s.pc + 2) ∧ FrameBut [.pc] s t) ∧
    (∃ t, exec (.sneReg x y) s = .next t ∧
      t.pc = (if s.reg x = s.reg y then s.pc + 2 else s.pc + 4) ∧ FrameBut [.pc] s t) ∧
    (∀ n : Nibble, n ≠ 0 →
      decode ((0x5 : Nibble) ++ x ++ y ++ n) = .unknown ((0x5 : Nibble) ++ x ++ y ++ n) ∧
      decode ((0x9 : Nibble) ++ x ++ y ++ n) = .unknown ((0x9 : Nibble) ++ x ++ y ++ n))

/-! ### Registers and ALU -/

/-- R100, encoding line included (its bit pattern: the spec's decision D36, log entry 12). -/
def Obligations.LdImmLoadsTheByte : Prop :=
  ∀ (x : Nibble) (kk : Byte) (s : State),
    decode ((0x6 : Nibble) ++ x ++ kk) = .instr (.ldImm x kk) ∧
    ∃ t, exec (.ldImm x kk) s = .next t ∧ t.reg x = kk ∧ RegsBut [x] s t ∧
      t.pc = s.pc + 2 ∧ FrameBut [.regs, .pc] s t

/-- R101, encoding line included (its bit pattern: the spec's decision D36, log entry 12). -/
def Obligations.AddImmWrapsAndSetsNoFlag : Prop :=
  ∀ (x : Nibble) (kk : Byte) (s : State),
    decode ((0x7 : Nibble) ++ x ++ kk) = .instr (.addImm x kk) ∧
    ∃ t, exec (.addImm x kk) s = .next t ∧
      (t.reg x).toNat = ((s.reg x).toNat + kk.toNat) % 256 ∧ RegsBut [x] s t ∧
      t.pc = s.pc + 2 ∧ FrameBut [.regs, .pc] s t

/-- R102, R103, R104, R105, encoding lines included (their bit patterns: the spec's decision D36, log entry 12). -/
def Obligations.CopyAndLogicWorkBitByBit : Prop :=
  ∀ (x y : Nibble) (s : State),
    (decode ((0x8 : Nibble) ++ x ++ y ++ (0x0 : Nibble)) = .instr (.ldReg x y) ∧
     decode ((0x8 : Nibble) ++ x ++ y ++ (0x1 : Nibble)) = .instr (.orReg x y) ∧
     decode ((0x8 : Nibble) ++ x ++ y ++ (0x2 : Nibble)) = .instr (.andReg x y) ∧
     decode ((0x8 : Nibble) ++ x ++ y ++ (0x3 : Nibble)) = .instr (.xorReg x y)) ∧
    (∃ t, exec (.ldReg x y) s = .next t ∧ t.reg x = s.reg y ∧ RegsBut [x] s t ∧
      t.pc = s.pc + 2 ∧ FrameBut [.regs, .pc] s t) ∧
    (∃ t, exec (.orReg x y) s = .next t ∧
      (∀ b < 8, (t.reg x).getLsbD b = ((s.reg x).getLsbD b || (s.reg y).getLsbD b)) ∧
      RegsBut [x] s t ∧ t.pc = s.pc + 2 ∧ FrameBut [.regs, .pc] s t) ∧
    (∃ t, exec (.andReg x y) s = .next t ∧
      (∀ b < 8, (t.reg x).getLsbD b = ((s.reg x).getLsbD b && (s.reg y).getLsbD b)) ∧
      RegsBut [x] s t ∧ t.pc = s.pc + 2 ∧ FrameBut [.regs, .pc] s t) ∧
    (∃ t, exec (.xorReg x y) s = .next t ∧
      (∀ b < 8, (t.reg x).getLsbD b = ((s.reg x).getLsbD b ^^ (s.reg y).getLsbD b)) ∧
      RegsBut [x] s t ∧ t.pc = s.pc + 2 ∧ FrameBut [.regs, .pc] s t)

/-- 41_alu.md section 2, `ADD Vx, Vy` (flag written last, which shows with `x = 15`: the spec's decision D7). -/
def Obligations.AddRegSetsTheCarry : Prop :=
  ∀ (x y : Nibble) (s : State),
    decode ((0x8 : Nibble) ++ x ++ y ++ (0x4 : Nibble)) = .instr (.addReg x y) ∧
    ∃ t, exec (.addReg x y) s = .next t ∧
      (x ≠ VF → (t.reg x).toNat = ((s.reg x).toNat + (s.reg y).toNat) % 256) ∧
      t.reg VF = (if (s.reg x).toNat + (s.reg y).toNat > 255 then 1 else 0) ∧
      RegsBut [x, VF] s t ∧ t.pc = s.pc + 2 ∧ FrameBut [.regs, .pc] s t

/-- 41_alu.md section 2, `SUB` and `SUBN` (sense of the flag: conflict C1, the spec's decision D35; flag written last:
D7). -/
def Obligations.SubtractionsSetNotBorrow : Prop :=
  ∀ (x y : Nibble) (s : State),
    (decode ((0x8 : Nibble) ++ x ++ y ++ (0x5 : Nibble)) = .instr (.subReg x y) ∧
     decode ((0x8 : Nibble) ++ x ++ y ++ (0x7 : Nibble)) = .instr (.subnReg x y)) ∧
    (∃ t, exec (.subReg x y) s = .next t ∧
      (x ≠ VF → (t.reg x).toNat = (256 + (s.reg x).toNat - (s.reg y).toNat) % 256) ∧
      t.reg VF = (if (s.reg x).toNat < (s.reg y).toNat then 0 else 1) ∧
      RegsBut [x, VF] s t ∧ t.pc = s.pc + 2 ∧ FrameBut [.regs, .pc] s t) ∧
    (∃ t, exec (.subnReg x y) s = .next t ∧
      (x ≠ VF → (t.reg x).toNat = (256 + (s.reg y).toNat - (s.reg x).toNat) % 256) ∧
      t.reg VF = (if (s.reg y).toNat < (s.reg x).toNat then 0 else 1) ∧
      RegsBut [x, VF] s t ∧ t.pc = s.pc + 2 ∧ FrameBut [.regs, .pc] s t)

/-- 41_alu.md section 2, `SHR` and `SHL` (the three writes in order: the spec's decision D32, which shows with
`x = 15`). -/
def Obligations.ShiftsMoveVyByOne : Prop :=
  ∀ (x y : Nibble) (s : State),
    (decode ((0x8 : Nibble) ++ x ++ y ++ (0x6 : Nibble)) = .instr (.shr x y) ∧
     decode ((0x8 : Nibble) ++ x ++ y ++ (0xE : Nibble)) = .instr (.shl x y)) ∧
    (∃ t, exec (.shr x y) s = .next t ∧
      (x ≠ VF → (t.reg x).toNat = (s.reg y).toNat / 2 ∧ (t.reg VF).toNat = (s.reg y).toNat % 2) ∧
      (x = VF → t.reg VF = 0) ∧
      RegsBut [x, VF] s t ∧ t.pc = s.pc + 2 ∧ FrameBut [.regs, .pc] s t) ∧
    (∃ t, exec (.shl x y) s = .next t ∧
      (x ≠ VF → (t.reg x).toNat = ((s.reg y).toNat * 2) % 256 ∧
        (t.reg VF).toNat = (s.reg y).toNat / 128) ∧
      (x = VF → t.reg VF = (if (s.reg y).toNat ≥ 128 then 2 else 0)) ∧
      RegsBut [x, VF] s t ∧ t.pc = s.pc + 2 ∧ FrameBut [.regs, .pc] s t)

/-- 41_alu.md section 2, `RND` (the byte is a free value: the spec's decision D22, log entry 1; this holds whatever the
source supplies). -/
def Obligations.RndMasksTheSuppliedByte : Prop :=
  ∀ (x : Nibble) (kk : Byte) (s : State),
    decode ((0xC : Nibble) ++ x ++ kk) = .instr (.rnd x kk) ∧
    ∃ t, exec (.rnd x kk) s = .next t ∧
      (∀ b < 8, (t.reg x).getLsbD b = ((Config.rnd s.draws).getLsbD b && kk.getLsbD b)) ∧
      t.draws = s.draws + 1 ∧ RegsBut [x] s t ∧ t.pc = s.pc + 2 ∧ FrameBut [.regs, .draws, .pc] s t

/-! ### Index register and memory -/

/-- R120, encoding line included (its bit pattern: the spec's decision D36, log entry 12). -/
def Obligations.LdILoadsTheAddress : Prop :=
  ∀ (nnn : Addr12) (s : State),
    decode ((0xA : Nibble) ++ nnn) = .instr (.ldI nnn) ∧
    ∃ t, exec (.ldI nnn) s = .next t ∧ t.I.toNat = nnn.toNat ∧ t.pc = s.pc + 2 ∧
      FrameBut [.index, .pc] s t

/-- 42_index_memory.md section 2, `ADD I, Vx` (the wrap at 16 bits: the spec's decision D12) and `LD F, Vx` (no masking:
D28). -/
def Obligations.IndexArithmetic : Prop :=
  ∀ (x : Nibble) (s : State),
    (decode ((0xF : Nibble) ++ x ++ (0x1E : Byte)) = .instr (.addI x) ∧
     decode ((0xF : Nibble) ++ x ++ (0x29 : Byte)) = .instr (.ldF x)) ∧
    (∃ t, exec (.addI x) s = .next t ∧ t.I.toNat = (s.I.toNat + (s.reg x).toNat) % 65536 ∧
      t.pc = s.pc + 2 ∧ FrameBut [.index, .pc] s t) ∧
    (∃ t, exec (.ldF x) s = .next t ∧ t.I.toNat = (s.reg x).toNat * 5 ∧
      t.pc = s.pc + 2 ∧ FrameBut [.index, .pc] s t)

/-- 42_index_memory.md section 2, `LD B, Vx` (addresses do not wrap: the spec's decision D4; `I` unchanged: D10). -/
def Obligations.LdBStoresTheDecimalDigits : Prop :=
  ∀ (x : Nibble) (s : State),
    decode ((0xF : Nibble) ++ x ++ (0x33 : Byte)) = .instr (.ldB x) ∧
    (s.ea 2 > 4095 →
      exec (.ldB x) s = .next (s.faulted .memOutOfRange ((0xF : Nibble) ++ x ++ (0x33 : Byte)))) ∧
    (s.ea 2 ≤ 4095 → ∃ t, exec (.ldB x) s = .next t ∧
      (t.readByte (s.ea 0)).toNat = (s.reg x).toNat / 100 ∧
      (t.readByte (s.ea 1)).toNat = (s.reg x).toNat / 10 % 10 ∧
      (t.readByte (s.ea 2)).toNat = (s.reg x).toNat % 10 ∧
      (∀ a, a < s.ea 0 ∨ s.ea 2 < a → t.readByte a = s.readByte a) ∧
      t.pc = s.pc + 2 ∧ FrameBut [.memory, .pc] s t)

/-- 42_index_memory.md section 2, `LD [I], Vx` (D4; `I` unchanged: D10; `x` is the register index: D11). -/
def Obligations.StoreRegistersWritesV0ToVx : Prop :=
  ∀ (x : Nibble) (s : State),
    decode ((0xF : Nibble) ++ x ++ (0x55 : Byte)) = .instr (.ldMemVx x) ∧
    (s.ea x.toNat > 4095 →
      exec (.ldMemVx x) s = .next (s.faulted .memOutOfRange ((0xF : Nibble) ++ x ++ (0x55 : Byte)))) ∧
    (s.ea x.toNat ≤ 4095 → ∃ t, exec (.ldMemVx x) s = .next t ∧
      (∀ r : Nibble, r.toNat ≤ x.toNat → t.readByte (s.ea r.toNat) = s.reg r) ∧
      (∀ a, a < s.ea 0 ∨ s.ea x.toNat < a → t.readByte a = s.readByte a) ∧
      t.pc = s.pc + 2 ∧ FrameBut [.memory, .pc] s t)

/-- 42_index_memory.md section 2, `LD Vx, [I]` (D4, D10, D11). -/
def Obligations.LoadRegistersReadsV0ToVx : Prop :=
  ∀ (x : Nibble) (s : State),
    decode ((0xF : Nibble) ++ x ++ (0x65 : Byte)) = .instr (.ldVxMem x) ∧
    (s.ea x.toNat > 4095 →
      exec (.ldVxMem x) s = .next (s.faulted .memOutOfRange ((0xF : Nibble) ++ x ++ (0x65 : Byte)))) ∧
    (s.ea x.toNat ≤ 4095 → ∃ t, exec (.ldVxMem x) s = .next t ∧
      (∀ r : Nibble, r.toNat ≤ x.toNat → t.reg r = s.readByte (s.ea r.toNat)) ∧
      (∀ r : Nibble, x.toNat < r.toNat → t.reg r = s.reg r) ∧
      t.pc = s.pc + 2 ∧ FrameBut [.regs, .pc] s t)

/-- 42_index_memory.md section 2 (D10, D11): a block load after a block store brings every stored register back,
whatever the registers held in between. -/
def Obligations.BlockLoadUndoesBlockStore : Prop :=
  ∀ (x : Nibble) (s t : State) (V : Vector Byte 16), s.ea x.toNat ≤ 4095 →
    exec (.ldMemVx x) s = .next t →
    ∃ u, exec (.ldVxMem x) { t with V := V } = .next u ∧
      ∀ r : Nibble, r.toNat ≤ x.toNat → u.reg r = s.reg r

/-- 20_memory.md section 6 (self-modifying code; derived there): an instruction that stores over the word after it is
followed by the word it stored. -/
def Obligations.StoredWordIsFetchedNext : Prop :=
  ∀ (s : State) (x : Nibble) (i : Instr), s.fault = none → s.schedule = [] →
    s.pc.toNat ≤ 4092 → decode s.fetchWord = .instr (.ldMemVx x) → x.toNat ≥ 1 →
    s.I = s.pc + 2 → s.ea x.toNat ≤ 4095 → decode (s.reg 0 ++ s.reg 1) = .instr i →
    ∃ t, step s = .next t ∧ t.pc = s.pc + 2 ∧ step t = exec i t

/-! ### Display -/

/-- R130, encoding line included (its bit pattern: the spec's decision D36, log entry 12). -/
def Obligations.ClsClearsEveryCell : Prop :=
  decode 0x00E0 = .instr .cls ∧
  ∀ s : State, ∃ t, exec .cls s = .next t ∧ (∀ j < 2048, t.cell j = 0x00) ∧
    t.pc = s.pc + 2 ∧ FrameBut [.display, .pc] s t

/-- 43_display.md section 2, `DRW` (`VF` always written: the spec's decision D8; the range check counts every row and
`n = 0` draws nothing: D9; bit 7 leftmost: general knowledge G5). -/
def Obligations.DrwXorsTheSprite : Prop :=
  ∀ (x y n : Nibble) (s : State),
    decode ((0xD : Nibble) ++ x ++ y ++ n) = .instr (.drw x y n) ∧
    (n.toNat > 0 → s.ea (n.toNat - 1) > 4095 →
      exec (.drw x y n) s = .next (s.faulted .memOutOfRange ((0xD : Nibble) ++ x ++ y ++ n))) ∧
    (n.toNat = 0 ∨ s.ea (n.toNat - 1) ≤ 4095 → ∃ t, exec (.drw x y n) s = .next t ∧
      (∀ j, s.spriteOn ((s.reg x).toNat % 64) ((s.reg y).toNat % 32) n.toNat j →
        t.cell j = s.cell j ^^^ 0xFF) ∧
      (∀ j, ¬ s.spriteOn ((s.reg x).toNat % 64) ((s.reg y).toNat % 32) n.toNat j →
        t.cell j = s.cell j) ∧
      ((∃ j, s.spriteOn ((s.reg x).toNat % 64) ((s.reg y).toNat % 32) n.toNat j ∧ s.cell j = 0xFF) →
        t.reg VF = 1) ∧
      ((∀ j, s.spriteOn ((s.reg x).toNat % 64) ((s.reg y).toNat % 32) n.toNat j → s.cell j = 0x00) →
        t.reg VF = 0) ∧
      RegsBut [VF] s t ∧ t.pc = s.pc + 2 ∧ FrameBut [.display, .regs, .pc] s t)

/-- 43_display.md section 2, `DRW`: the same sprite drawn twice at the same place restores the display, and one of the
two draws reports a collision exactly if the sprite has a 1 bit on the screen. (That it is the second one holds of a
display without the sprite's cells only: log entry 16. With `x` or `y` 15 the flag the first draw writes moves the second
sprite, so nothing of the kind holds there.) -/
def Obligations.DrawingTwiceRestoresTheDisplay : Prop :=
  ∀ (x y n : Nibble) (s : State), x ≠ VF → y ≠ VF → n.toNat = 0 ∨ s.ea (n.toNat - 1) ≤ 4095 →
    ∃ t u, exec (.drw x y n) s = .next t ∧ exec (.drw x y n) t = .next u ∧
      (∀ j, u.cell j = s.cell j) ∧
      ((t.reg VF = 1 ∨ u.reg VF = 1) ↔
        ∃ j, s.spriteOn ((s.reg x).toNat % 64) ((s.reg y).toNat % 32) n.toNat j)

/-! ### Keys and timers -/

/-- 44_keys_timers.md section 2, `SKP` and `SKNP` (an index above 15 faults: the spec's decision D5). -/
def Obligations.KeySkipsTestOneFlag : Prop :=
  ∀ (x : Nibble) (s : State),
    (decode ((0xE : Nibble) ++ x ++ (0x9E : Byte)) = .instr (.skp x) ∧
     decode ((0xE : Nibble) ++ x ++ (0xA1 : Byte)) = .instr (.sknp x)) ∧
    ((s.reg x).toNat > 15 →
      exec (.skp x) s = .next (s.faulted .keyIndexOutOfRange ((0xE : Nibble) ++ x ++ (0x9E : Byte))) ∧
      exec (.sknp x) s = .next (s.faulted .keyIndexOutOfRange ((0xE : Nibble) ++ x ++ (0xA1 : Byte)))) ∧
    (∀ k : Nibble, (s.reg x).toNat = k.toNat →
      (∃ t, exec (.skp x) s = .next t ∧
        t.pc = (if s.keyHeld k then s.pc + 4 else s.pc + 2) ∧ FrameBut [.pc] s t) ∧
      (∃ t, exec (.sknp x) s = .next t ∧
        t.pc = (if s.keyHeld k then s.pc + 2 else s.pc + 4) ∧ FrameBut [.pc] s t))

/-- R142, R144, R145, encoding lines included (their bit patterns: the spec's decision D36, log entry 12). -/
def Obligations.TimersAreCopied : Prop :=
  ∀ (x : Nibble) (s : State),
    (decode ((0xF : Nibble) ++ x ++ (0x07 : Byte)) = .instr (.ldVxDt x) ∧
     decode ((0xF : Nibble) ++ x ++ (0x15 : Byte)) = .instr (.ldDtVx x) ∧
     decode ((0xF : Nibble) ++ x ++ (0x18 : Byte)) = .instr (.ldStVx x)) ∧
    (∃ t, exec (.ldVxDt x) s = .next t ∧ t.reg x = s.DT ∧ RegsBut [x] s t ∧
      t.pc = s.pc + 2 ∧ FrameBut [.regs, .pc] s t) ∧
    (∃ t, exec (.ldDtVx x) s = .next t ∧ t.DT = s.reg x ∧
      t.pc = s.pc + 2 ∧ FrameBut [.delay, .pc] s t) ∧
    (∃ t, exec (.ldStVx x) s = .next t ∧ t.ST = s.reg x ∧
      t.pc = s.pc + 2 ∧ FrameBut [.sound, .pc] s t)

/-- R143, encoding line included (its bit pattern: the spec's decision D36, log entry 12). -/
def Obligations.KeyWaitTakesTheLowestKey : Prop :=
  ∀ (x : Nibble) (s : State),
    decode ((0xF : Nibble) ++ x ++ (0x0A : Byte)) = .instr (.ldVxK x) ∧
    (∀ k : Nibble, s.keyHeld k = true → (∀ m : Nibble, m.toNat < k.toNat → s.keyHeld m = false) →
      ∃ t, exec (.ldVxK x) s = .next t ∧ (t.reg x).toNat = k.toNat ∧ RegsBut [x] s t ∧
        t.pc = s.pc + 2 ∧ FrameBut [.regs, .pc] s t) ∧
    ((∀ k, s.keyHeld k = false) → exec (.ldVxK x) s = .next s)

/-- 70_reset_and_hazards.md section 4 (waiting is a livelock): while no key is down and nothing else happens, any number
of steps at a key wait leaves the state as it is. -/
def Obligations.KeyWaitRepeatsUntilAKey : Prop :=
  ∀ (k : Nat) (x : Nibble) (s : State), s.fault = none → s.schedule = [] → s.signal = none →
    s.pc.toNat ≤ 4094 → decode s.fetchWord = .instr (.ldVxK x) → (∀ m, s.keyHeld m = false) →
    Sys2Proof.core.run k s = .next s

/-! ### Rules of the whole machine -/

/-- R13. -/
def Obligations.PcAfterEveryInstruction : Prop :=
  ∀ (i : Instr) (s t : State), s.fault = none → s.pc.toNat ≤ 4094 → exec i s = .next t →
    (t.fault ≠ none → t.pc = s.pc) ∧ (t.fault = none → pcRule i s t)

/-- 10_state.md section 1, column "Written by": each piece of the state is written only by its own instructions; no
instruction writes a key flag, `sound_playing`, the parameters, the schedule or a pulse. -/
def Obligations.EachPieceHasOnlyItsWriters : Prop :=
  ∀ (i : Instr) (s t : State), exec i s = .next t → FrameBut (.pc :: .fault :: instrWrites i) s t

/-- 10_state.md section 2 (`VF`): an instruction writes its destination registers only, and `VF` besides only if it is
one of the six that report a flag. -/
def Obligations.OnlyDestinationRegistersChange : Prop :=
  ∀ (i : Instr) (s t : State), exec i s = .next t → RegsBut (instrDestRegs i) s t

/-- 60_exceptions.md section 1 (the spec's decisions D2, D4, D5, D16, D18): an instruction that faults raises the one
fault listed for it, records its own word and address, and changes nothing else. -/
def Obligations.FaultsArePreciseAndListed : Prop :=
  ∀ (i : Instr) (s t : State), s.fault = none → exec i s = .next t →
    t.fault = none ∨ ∃ c, instrFaultCause i = some c ∧ t = s.faulted c (encode i)

/-- 10_state.md section 7 (keys): an instruction other than `SKP`, `SKNP` and `LD Vx, K` does not depend on the key
flags. -/
def Obligations.KeysMatterOnlyToKeyInstructions : Prop :=
  ∀ (i : Instr) (s t : State) (key : Vector Bool 16), instrReadsKeys i = false →
    exec i s = .next t → exec i { s with key := key } = .next { t with key := key }

/-! ### Timer engine and host -/

/-- 60_exceptions.md section 4 (the flag and the time of the edges: the spec's decision D21): a timer tick of a machine
that is not halted. -/
def Obligations.TimerTickCountsDownAndDrivesEdges : Prop :=
  ∀ (s : State) (rest : List Event), s.fault = none → s.schedule = .timerTick :: rest →
    ∃ t, step s = .next t ∧ t.DT.toNat = s.DT.toNat - 1 ∧ t.ST.toNat = s.ST.toNat - 1 ∧
      (s.ST.toNat ≥ 2 → s.soundPlaying = false → t.signal = some .soundStart ∧ t.soundPlaying = true) ∧
      (s.ST.toNat ≤ 1 → s.soundPlaying = true → t.signal = some .soundStop ∧ t.soundPlaying = false) ∧
      (s.ST.toNat ≥ 2 → s.soundPlaying = true → t.signal = none ∧ t.soundPlaying = true) ∧
      (s.ST.toNat ≤ 1 → s.soundPlaying = false → t.signal = none ∧ t.soundPlaying = false) ∧
      t.schedule = rest ∧ FrameBut [.delay, .sound, .playing, .signal, .schedule] s t

/-- 60_exceptions.md section 4, consequence derived there (D21): along any run without a reset or a restore the start and
stop edges alternate, and a start comes first exactly if the sound is not playing at the beginning. -/
def Obligations.SoundEdgesAlternate : Prop :=
  ∀ (k : Nat) (s : State), (∀ e ∈ s.schedule, e.ordinary = true) →
    alternates s.soundPlaying (signalsAlong k s)

/-- 60_exceptions.md section 5, the keypad. That the pulse of the step before ends and that the event is taken off the
schedule is the model's choice (log entries 2, 8). -/
def Obligations.KeyEventsSetOneFlag : Prop :=
  ∀ (s : State) (k : Nibble) (rest : List Event),
    (s.schedule = .keyDown k :: rest → ∃ t, step s = .next t ∧ t.keyHeld k = true ∧
      (∀ m, m ≠ k → t.keyHeld m = s.keyHeld m) ∧ t.schedule = rest ∧
      FrameBut [.keys, .schedule, .signal] s t) ∧
    (s.schedule = .keyUp k :: rest → ∃ t, step s = .next t ∧ t.keyHeld k = false ∧
      (∀ m, m ≠ k → t.keyHeld m = s.keyHeld m) ∧ t.schedule = rest ∧
      FrameBut [.keys, .schedule, .signal] s t)

/-- 60_exceptions.md sections 5 and 6 (always enabled: the spec's decision D26): reading the display or the state changes
nothing of the machine, and what the display port gives is the 2048 cells in order, each 0x00 or 0xFF. -/
def Obligations.HostReadsChangeNothing : Prop :=
  ∀ (s : State) (rest : List Event),
    (s.schedule = .displayRead :: rest → step s = .next { s with signal := none, schedule := rest }) ∧
    (s.schedule = .stateRead :: rest → step s = .next { s with signal := none, schedule := rest }) ∧
    s.displayOut.length = 2048 ∧
    (∀ j < 2048, s.displayOut[j]? = some (s.cell j)) ∧
    (∀ b ∈ s.displayOut, b = 0x00 ∨ b = 0xFF)

/-- 70_reset_and_hazards.md section 1 (the zero values: the spec's decisions D15, D16, D21): `Reset` with an image that
fits, from any state. -/
def Obligations.ResetLoadsTheImage : Prop :=
  ∀ (s : State) (image : List Byte) (rest : List Event),
    s.schedule = .reset image :: rest → image.length ≤ 3584 →
    ∃ t, step s = .next t ∧
      (∀ a < 4096, t.readByte a =
        if 0x200 ≤ a ∧ a < 0x200 + image.length then image.getD (a - 0x200) 0
        else if h : a < 80 then s.cfg.font[a] else 0x00) ∧
      t.pc = 0x200 ∧ (∀ r, t.reg r = 0) ∧ t.I = 0 ∧ t.stack = [] ∧ t.DT = 0 ∧ t.ST = 0 ∧
      (∀ k, t.keyHeld k = false) ∧ (∀ j, t.cell j = 0x00) ∧ t.soundPlaying = false ∧
      t.fault = none ∧ t.cfg = s.cfg ∧ t.draws = s.draws ∧ t.schedule = rest ∧ t.signal = none

/-- 70_reset_and_hazards.md section 1 (the spec's decision D34; the report is a pulse: log entry 9): an image that does
not fit is refused and the machine stays as it is. -/
def Obligations.OversizedImageIsRefused : Prop :=
  ∀ (s : State) (image : List Byte) (rest : List Event),
    s.schedule = .reset image :: rest → image.length > 3584 →
    step s = .next { s with signal := some .loadError, schedule := rest }

/-- 60_exceptions.md section 6 (derived there; D26): after a state was read, any steps of any agents and a restore of what
was read bring every piece of the spec's state back, and the restore drives no sound edge. That the parameters stay and
that the schedule runs on to its end is the model's choice (log entries 2, 20). -/
def Obligations.RestoreUndoesAnySteps : Prop :=
  ∀ (s : State) (events : List Event),
    ∃ t, Sys2Proof.core.run (events.length + 1)
        ({ s with schedule := events ++ [.stateRestore s.toMachineState] } : State) = .next t ∧
      t.toMachineState = s.toMachineState ∧ t.signal = none ∧ t.schedule = [] ∧ t.cfg = s.cfg

/-! ### Invariants -/

/-- 10_state.md section 14 (zero values: the spec's decisions D15, D16, D21): the state after reset. -/
def Obligations.ResetState : Prop :=
  (State.reset.pc = 0x200 ∧ State.reset.I = 0 ∧ State.reset.stack = [] ∧ State.reset.DT = 0 ∧
    State.reset.ST = 0 ∧ State.reset.soundPlaying = false ∧ State.reset.fault = none) ∧
  (∀ r, State.reset.reg r = 0) ∧ (∀ k, State.reset.keyHeld k = false) ∧
  (∀ j, State.reset.cell j = 0x00) ∧
  (∀ a, State.reset.readByte a = if h : a < 80 then defaultFont[a] else 0x00)

/-- The model's invariant holds after reset (log entries 4, 13). -/
def Obligations.ResetMeetsTheInvariant : Prop := State.reset.Inv

/-- The model's invariant (log entries 4, 13) is kept by every step of every agent, from every state that meets it. -/
def Obligations.EveryStepKeepsTheInvariant : Prop :=
  ∀ s t : State, s.Inv → step s = .next t → t.Inv

/-- 10_state.md section 11 (what is not state): no step changes the parameters, and no step takes a random byte back
(log entries 1, 3). -/
def Obligations.EveryStepKeepsTheParameters : Prop :=
  ∀ s t : State, step s = .next t → t.cfg = s.cfg ∧ s.draws ≤ t.draws

/-- 70_reset_and_hazards.md section 4 (the end of a run: the spec's decision D24): a machine whose next instruction is a
jump to itself stays where it is. -/
def Obligations.EndedRunStaysAtItsJump : Prop :=
  ∀ s : State, s.endedWell → s.schedule = [] → step s = .next { s with signal := none }
end

