-- ==== Sys2Proof/Laws/Decode.lean ====
section
/-!
SUPPORT. The fields of a word put together from its parts (30_encoding.md R61), for each format.
-/

namespace Sys2Proof

/-- Format NNN. -/
theorem fields_nnn (op : Nibble) (nnn : Addr12) :
    opField (op ++ nnn) = op ∧ nnnField (op ++ nnn) = nnn := by
  constructor <;>
  · simp only [opField, nnnField]
    apply BitVec.eq_of_getLsbD_eq
    intro i hi
    simp only [BitVec.getLsbD_extractLsb', BitVec.getLsbD_append]
    grind

/-- Format XKK (and X, whose `kk` is its key). -/
theorem fields_xkk (op x : Nibble) (kk : Byte) :
    opField (op ++ x ++ kk) = op ∧ xField (op ++ x ++ kk) = x ∧ kkField (op ++ x ++ kk) = kk := by
  refine ⟨?_, ?_, ?_⟩ <;>
  · simp only [opField, xField, kkField]
    apply BitVec.eq_of_getLsbD_eq
    intro i hi
    simp only [BitVec.getLsbD_extractLsb', BitVec.getLsbD_append]
    grind

/-- Formats XY and XYN. -/
theorem fields_xyn (op x y n : Nibble) :
    opField (op ++ x ++ y ++ n) = op ∧ xField (op ++ x ++ y ++ n) = x ∧
      yField (op ++ x ++ y ++ n) = y ∧ nField (op ++ x ++ y ++ n) = n := by
  refine ⟨?_, ?_, ?_, ?_⟩ <;>
  · simp only [opField, xField, yField, nField]
    apply BitVec.eq_of_getLsbD_eq
    intro i hi
    simp only [BitVec.getLsbD_extractLsb', BitVec.getLsbD_append]
    grind

/-- A word is its primary key and its `nnn`. -/
theorem word_eq_nnn (w : Word) : w = opField w ++ nnnField w := by
  simp only [opField, nnnField]
  apply BitVec.eq_of_getLsbD_eq
  intro i hi
  simp only [BitVec.getLsbD_extractLsb', BitVec.getLsbD_append]
  grind

/-- A word is its primary key, its `x` and its `kk`. -/
theorem word_eq_xkk (w : Word) : w = opField w ++ xField w ++ kkField w := by
  simp only [opField, xField, kkField]
  apply BitVec.eq_of_getLsbD_eq
  intro i hi
  simp only [BitVec.getLsbD_extractLsb', BitVec.getLsbD_append]
  grind

/-- A word is its four digits. -/
theorem word_eq_xyn (w : Word) : w = opField w ++ xField w ++ yField w ++ nField w := by
  simp only [opField, xField, yField, nField]
  apply BitVec.eq_of_getLsbD_eq
  intro i hi
  simp only [BitVec.getLsbD_extractLsb', BitVec.getLsbD_append]
  grind

/-- The two bytes of a word put together again are the word (20_memory.md R46). -/
theorem wordOfBytes_hi_lo (w : Word) : wordOfBytes (hiByte w) (loByte w) = w := by
  simp only [wordOfBytes, hiByte, loByte]
  apply BitVec.eq_of_getLsbD_eq
  intro i hi
  simp only [BitVec.getLsbD_extractLsb', BitVec.getLsbD_append]
  grind

end Sys2Proof
end

