-- ==== Sys2Proof/Laws/State.lean ====
section
/-!
SUPPORT. What each update of the state does to each field, true by rfl, and to each of the reads the statements
use (a register, a byte of memory, a display cell, a key flag).
-/

namespace Sys2Proof.Machine

variable (s : State)

/-! ### setReg -/

@[simp] theorem State.setReg_V (x : Nibble) (v : Byte) : (s.setReg x v).V = s.V.set x.toNat v x.isLt := rfl
@[simp] theorem State.setReg_pc (x : Nibble) (v : Byte) : (s.setReg x v).pc = s.pc := rfl
@[simp] theorem State.setReg_I (x : Nibble) (v : Byte) : (s.setReg x v).I = s.I := rfl
@[simp] theorem State.setReg_stack (x : Nibble) (v : Byte) : (s.setReg x v).stack = s.stack := rfl
@[simp] theorem State.setReg_DT (x : Nibble) (v : Byte) : (s.setReg x v).DT = s.DT := rfl
@[simp] theorem State.setReg_ST (x : Nibble) (v : Byte) : (s.setReg x v).ST = s.ST := rfl
@[simp] theorem State.setReg_key (x : Nibble) (v : Byte) : (s.setReg x v).key = s.key := rfl
@[simp] theorem State.setReg_disp (x : Nibble) (v : Byte) : (s.setReg x v).disp = s.disp := rfl
@[simp] theorem State.setReg_mem (x : Nibble) (v : Byte) : (s.setReg x v).mem = s.mem := rfl
@[simp] theorem State.setReg_soundPlaying (x : Nibble) (v : Byte) : (s.setReg x v).soundPlaying = s.soundPlaying := rfl
@[simp] theorem State.setReg_fault (x : Nibble) (v : Byte) : (s.setReg x v).fault = s.fault := rfl
@[simp] theorem State.setReg_cfg (x : Nibble) (v : Byte) : (s.setReg x v).cfg = s.cfg := rfl
@[simp] theorem State.setReg_draws (x : Nibble) (v : Byte) : (s.setReg x v).draws = s.draws := rfl
@[simp] theorem State.setReg_schedule (x : Nibble) (v : Byte) : (s.setReg x v).schedule = s.schedule := rfl
@[simp] theorem State.setReg_signal (x : Nibble) (v : Byte) : (s.setReg x v).signal = s.signal := rfl
@[simp] theorem State.setReg_readByte (x : Nibble) (v : Byte) (n : Nat) : (s.setReg x v).readByte n = s.readByte n := rfl
@[simp] theorem State.setReg_cell (x : Nibble) (v : Byte) (j : Nat) : (s.setReg x v).cell j = s.cell j := rfl
@[simp] theorem State.setReg_isLit (x : Nibble) (v : Byte) (j : Nat) : (s.setReg x v).isLit j = s.isLit j := rfl
@[simp] theorem State.setReg_keyHeld (x : Nibble) (v : Byte) (m : Nibble) : (s.setReg x v).keyHeld m = s.keyHeld m := rfl

/-! ### setPc -/

@[simp] theorem State.setPc_V (t : Word) : (s.setPc t).V = s.V := rfl
@[simp] theorem State.setPc_pc (t : Word) : (s.setPc t).pc = t := rfl
@[simp] theorem State.setPc_I (t : Word) : (s.setPc t).I = s.I := rfl
@[simp] theorem State.setPc_stack (t : Word) : (s.setPc t).stack = s.stack := rfl
@[simp] theorem State.setPc_DT (t : Word) : (s.setPc t).DT = s.DT := rfl
@[simp] theorem State.setPc_ST (t : Word) : (s.setPc t).ST = s.ST := rfl
@[simp] theorem State.setPc_key (t : Word) : (s.setPc t).key = s.key := rfl
@[simp] theorem State.setPc_disp (t : Word) : (s.setPc t).disp = s.disp := rfl
@[simp] theorem State.setPc_mem (t : Word) : (s.setPc t).mem = s.mem := rfl
@[simp] theorem State.setPc_soundPlaying (t : Word) : (s.setPc t).soundPlaying = s.soundPlaying := rfl
@[simp] theorem State.setPc_fault (t : Word) : (s.setPc t).fault = s.fault := rfl
@[simp] theorem State.setPc_cfg (t : Word) : (s.setPc t).cfg = s.cfg := rfl
@[simp] theorem State.setPc_draws (t : Word) : (s.setPc t).draws = s.draws := rfl
@[simp] theorem State.setPc_schedule (t : Word) : (s.setPc t).schedule = s.schedule := rfl
@[simp] theorem State.setPc_signal (t : Word) : (s.setPc t).signal = s.signal := rfl
@[simp] theorem State.setPc_reg (t : Word) (r : Nibble) : (s.setPc t).reg r = s.reg r := rfl
@[simp] theorem State.setPc_readByte (t : Word) (n : Nat) : (s.setPc t).readByte n = s.readByte n := rfl
@[simp] theorem State.setPc_cell (t : Word) (j : Nat) : (s.setPc t).cell j = s.cell j := rfl
@[simp] theorem State.setPc_isLit (t : Word) (j : Nat) : (s.setPc t).isLit j = s.isLit j := rfl
@[simp] theorem State.setPc_keyHeld (t : Word) (m : Nibble) : (s.setPc t).keyHeld m = s.keyHeld m := rfl

/-! ### setI -/

@[simp] theorem State.setI_V (v : Word) : (s.setI v).V = s.V := rfl
@[simp] theorem State.setI_pc (v : Word) : (s.setI v).pc = s.pc := rfl
@[simp] theorem State.setI_I (v : Word) : (s.setI v).I = v := rfl
@[simp] theorem State.setI_stack (v : Word) : (s.setI v).stack = s.stack := rfl
@[simp] theorem State.setI_DT (v : Word) : (s.setI v).DT = s.DT := rfl
@[simp] theorem State.setI_ST (v : Word) : (s.setI v).ST = s.ST := rfl
@[simp] theorem State.setI_key (v : Word) : (s.setI v).key = s.key := rfl
@[simp] theorem State.setI_disp (v : Word) : (s.setI v).disp = s.disp := rfl
@[simp] theorem State.setI_mem (v : Word) : (s.setI v).mem = s.mem := rfl
@[simp] theorem State.setI_soundPlaying (v : Word) : (s.setI v).soundPlaying = s.soundPlaying := rfl
@[simp] theorem State.setI_fault (v : Word) : (s.setI v).fault = s.fault := rfl
@[simp] theorem State.setI_cfg (v : Word) : (s.setI v).cfg = s.cfg := rfl
@[simp] theorem State.setI_draws (v : Word) : (s.setI v).draws = s.draws := rfl
@[simp] theorem State.setI_schedule (v : Word) : (s.setI v).schedule = s.schedule := rfl
@[simp] theorem State.setI_signal (v : Word) : (s.setI v).signal = s.signal := rfl
@[simp] theorem State.setI_reg (v : Word) (r : Nibble) : (s.setI v).reg r = s.reg r := rfl
@[simp] theorem State.setI_readByte (v : Word) (n : Nat) : (s.setI v).readByte n = s.readByte n := rfl
@[simp] theorem State.setI_cell (v : Word) (j : Nat) : (s.setI v).cell j = s.cell j := rfl
@[simp] theorem State.setI_isLit (v : Word) (j : Nat) : (s.setI v).isLit j = s.isLit j := rfl
@[simp] theorem State.setI_keyHeld (v : Word) (m : Nibble) : (s.setI v).keyHeld m = s.keyHeld m := rfl

/-! ### setDT -/

@[simp] theorem State.setDT_V (v : Byte) : (s.setDT v).V = s.V := rfl
@[simp] theorem State.setDT_pc (v : Byte) : (s.setDT v).pc = s.pc := rfl
@[simp] theorem State.setDT_I (v : Byte) : (s.setDT v).I = s.I := rfl
@[simp] theorem State.setDT_stack (v : Byte) : (s.setDT v).stack = s.stack := rfl
@[simp] theorem State.setDT_DT (v : Byte) : (s.setDT v).DT = v := rfl
@[simp] theorem State.setDT_ST (v : Byte) : (s.setDT v).ST = s.ST := rfl
@[simp] theorem State.setDT_key (v : Byte) : (s.setDT v).key = s.key := rfl
@[simp] theorem State.setDT_disp (v : Byte) : (s.setDT v).disp = s.disp := rfl
@[simp] theorem State.setDT_mem (v : Byte) : (s.setDT v).mem = s.mem := rfl
@[simp] theorem State.setDT_soundPlaying (v : Byte) : (s.setDT v).soundPlaying = s.soundPlaying := rfl
@[simp] theorem State.setDT_fault (v : Byte) : (s.setDT v).fault = s.fault := rfl
@[simp] theorem State.setDT_cfg (v : Byte) : (s.setDT v).cfg = s.cfg := rfl
@[simp] theorem State.setDT_draws (v : Byte) : (s.setDT v).draws = s.draws := rfl
@[simp] theorem State.setDT_schedule (v : Byte) : (s.setDT v).schedule = s.schedule := rfl
@[simp] theorem State.setDT_signal (v : Byte) : (s.setDT v).signal = s.signal := rfl
@[simp] theorem State.setDT_reg (v : Byte) (r : Nibble) : (s.setDT v).reg r = s.reg r := rfl
@[simp] theorem State.setDT_readByte (v : Byte) (n : Nat) : (s.setDT v).readByte n = s.readByte n := rfl
@[simp] theorem State.setDT_cell (v : Byte) (j : Nat) : (s.setDT v).cell j = s.cell j := rfl
@[simp] theorem State.setDT_isLit (v : Byte) (j : Nat) : (s.setDT v).isLit j = s.isLit j := rfl
@[simp] theorem State.setDT_keyHeld (v : Byte) (m : Nibble) : (s.setDT v).keyHeld m = s.keyHeld m := rfl

/-! ### setST -/

@[simp] theorem State.setST_V (v : Byte) : (s.setST v).V = s.V := rfl
@[simp] theorem State.setST_pc (v : Byte) : (s.setST v).pc = s.pc := rfl
@[simp] theorem State.setST_I (v : Byte) : (s.setST v).I = s.I := rfl
@[simp] theorem State.setST_stack (v : Byte) : (s.setST v).stack = s.stack := rfl
@[simp] theorem State.setST_DT (v : Byte) : (s.setST v).DT = s.DT := rfl
@[simp] theorem State.setST_ST (v : Byte) : (s.setST v).ST = v := rfl
@[simp] theorem State.setST_key (v : Byte) : (s.setST v).key = s.key := rfl
@[simp] theorem State.setST_disp (v : Byte) : (s.setST v).disp = s.disp := rfl
@[simp] theorem State.setST_mem (v : Byte) : (s.setST v).mem = s.mem := rfl
@[simp] theorem State.setST_soundPlaying (v : Byte) : (s.setST v).soundPlaying = s.soundPlaying := rfl
@[simp] theorem State.setST_fault (v : Byte) : (s.setST v).fault = s.fault := rfl
@[simp] theorem State.setST_cfg (v : Byte) : (s.setST v).cfg = s.cfg := rfl
@[simp] theorem State.setST_draws (v : Byte) : (s.setST v).draws = s.draws := rfl
@[simp] theorem State.setST_schedule (v : Byte) : (s.setST v).schedule = s.schedule := rfl
@[simp] theorem State.setST_signal (v : Byte) : (s.setST v).signal = s.signal := rfl
@[simp] theorem State.setST_reg (v : Byte) (r : Nibble) : (s.setST v).reg r = s.reg r := rfl
@[simp] theorem State.setST_readByte (v : Byte) (n : Nat) : (s.setST v).readByte n = s.readByte n := rfl
@[simp] theorem State.setST_cell (v : Byte) (j : Nat) : (s.setST v).cell j = s.cell j := rfl
@[simp] theorem State.setST_isLit (v : Byte) (j : Nat) : (s.setST v).isLit j = s.isLit j := rfl
@[simp] theorem State.setST_keyHeld (v : Byte) (m : Nibble) : (s.setST v).keyHeld m = s.keyHeld m := rfl

/-! ### push -/

@[simp] theorem State.push_V (v : Word) : (s.push v).V = s.V := rfl
@[simp] theorem State.push_pc (v : Word) : (s.push v).pc = s.pc := rfl
@[simp] theorem State.push_I (v : Word) : (s.push v).I = s.I := rfl
@[simp] theorem State.push_stack (v : Word) : (s.push v).stack = s.stack ++ [v] := rfl
@[simp] theorem State.push_DT (v : Word) : (s.push v).DT = s.DT := rfl
@[simp] theorem State.push_ST (v : Word) : (s.push v).ST = s.ST := rfl
@[simp] theorem State.push_key (v : Word) : (s.push v).key = s.key := rfl
@[simp] theorem State.push_disp (v : Word) : (s.push v).disp = s.disp := rfl
@[simp] theorem State.push_mem (v : Word) : (s.push v).mem = s.mem := rfl
@[simp] theorem State.push_soundPlaying (v : Word) : (s.push v).soundPlaying = s.soundPlaying := rfl
@[simp] theorem State.push_fault (v : Word) : (s.push v).fault = s.fault := rfl
@[simp] theorem State.push_cfg (v : Word) : (s.push v).cfg = s.cfg := rfl
@[simp] theorem State.push_draws (v : Word) : (s.push v).draws = s.draws := rfl
@[simp] theorem State.push_schedule (v : Word) : (s.push v).schedule = s.schedule := rfl
@[simp] theorem State.push_signal (v : Word) : (s.push v).signal = s.signal := rfl
@[simp] theorem State.push_reg (v : Word) (r : Nibble) : (s.push v).reg r = s.reg r := rfl
@[simp] theorem State.push_readByte (v : Word) (n : Nat) : (s.push v).readByte n = s.readByte n := rfl
@[simp] theorem State.push_cell (v : Word) (j : Nat) : (s.push v).cell j = s.cell j := rfl
@[simp] theorem State.push_isLit (v : Word) (j : Nat) : (s.push v).isLit j = s.isLit j := rfl
@[simp] theorem State.push_keyHeld (v : Word) (m : Nibble) : (s.push v).keyHeld m = s.keyHeld m := rfl

/-! ### dropTop -/

@[simp] theorem State.dropTop_V : (s.dropTop).V = s.V := rfl
@[simp] theorem State.dropTop_pc : (s.dropTop).pc = s.pc := rfl
@[simp] theorem State.dropTop_I : (s.dropTop).I = s.I := rfl
@[simp] theorem State.dropTop_stack : (s.dropTop).stack = s.stack.dropLast := rfl
@[simp] theorem State.dropTop_DT : (s.dropTop).DT = s.DT := rfl
@[simp] theorem State.dropTop_ST : (s.dropTop).ST = s.ST := rfl
@[simp] theorem State.dropTop_key : (s.dropTop).key = s.key := rfl
@[simp] theorem State.dropTop_disp : (s.dropTop).disp = s.disp := rfl
@[simp] theorem State.dropTop_mem : (s.dropTop).mem = s.mem := rfl
@[simp] theorem State.dropTop_soundPlaying : (s.dropTop).soundPlaying = s.soundPlaying := rfl
@[simp] theorem State.dropTop_fault : (s.dropTop).fault = s.fault := rfl
@[simp] theorem State.dropTop_cfg : (s.dropTop).cfg = s.cfg := rfl
@[simp] theorem State.dropTop_draws : (s.dropTop).draws = s.draws := rfl
@[simp] theorem State.dropTop_schedule : (s.dropTop).schedule = s.schedule := rfl
@[simp] theorem State.dropTop_signal : (s.dropTop).signal = s.signal := rfl
@[simp] theorem State.dropTop_reg (r : Nibble) : (s.dropTop).reg r = s.reg r := rfl
@[simp] theorem State.dropTop_readByte (n : Nat) : (s.dropTop).readByte n = s.readByte n := rfl
@[simp] theorem State.dropTop_cell (j : Nat) : (s.dropTop).cell j = s.cell j := rfl
@[simp] theorem State.dropTop_isLit (j : Nat) : (s.dropTop).isLit j = s.isLit j := rfl
@[simp] theorem State.dropTop_keyHeld (m : Nibble) : (s.dropTop).keyHeld m = s.keyHeld m := rfl

/-! ### writeByte -/

@[simp] theorem State.writeByte_V (a : Nat) (b : Byte) : (s.writeByte a b).V = s.V := rfl
@[simp] theorem State.writeByte_pc (a : Nat) (b : Byte) : (s.writeByte a b).pc = s.pc := rfl
@[simp] theorem State.writeByte_I (a : Nat) (b : Byte) : (s.writeByte a b).I = s.I := rfl
@[simp] theorem State.writeByte_stack (a : Nat) (b : Byte) : (s.writeByte a b).stack = s.stack := rfl
@[simp] theorem State.writeByte_DT (a : Nat) (b : Byte) : (s.writeByte a b).DT = s.DT := rfl
@[simp] theorem State.writeByte_ST (a : Nat) (b : Byte) : (s.writeByte a b).ST = s.ST := rfl
@[simp] theorem State.writeByte_key (a : Nat) (b : Byte) : (s.writeByte a b).key = s.key := rfl
@[simp] theorem State.writeByte_disp (a : Nat) (b : Byte) : (s.writeByte a b).disp = s.disp := rfl
@[simp] theorem State.writeByte_mem (a : Nat) (b : Byte) : (s.writeByte a b).mem = Memory.write s.cfg s.mem a b := rfl
@[simp] theorem State.writeByte_soundPlaying (a : Nat) (b : Byte) : (s.writeByte a b).soundPlaying = s.soundPlaying := rfl
@[simp] theorem State.writeByte_fault (a : Nat) (b : Byte) : (s.writeByte a b).fault = s.fault := rfl
@[simp] theorem State.writeByte_cfg (a : Nat) (b : Byte) : (s.writeByte a b).cfg = s.cfg := rfl
@[simp] theorem State.writeByte_draws (a : Nat) (b : Byte) : (s.writeByte a b).draws = s.draws := rfl
@[simp] theorem State.writeByte_schedule (a : Nat) (b : Byte) : (s.writeByte a b).schedule = s.schedule := rfl
@[simp] theorem State.writeByte_signal (a : Nat) (b : Byte) : (s.writeByte a b).signal = s.signal := rfl
@[simp] theorem State.writeByte_reg (a : Nat) (b : Byte) (r : Nibble) : (s.writeByte a b).reg r = s.reg r := rfl
@[simp] theorem State.writeByte_cell (a : Nat) (b : Byte) (j : Nat) : (s.writeByte a b).cell j = s.cell j := rfl
@[simp] theorem State.writeByte_isLit (a : Nat) (b : Byte) (j : Nat) : (s.writeByte a b).isLit j = s.isLit j := rfl
@[simp] theorem State.writeByte_keyHeld (a : Nat) (b : Byte) (m : Nibble) : (s.writeByte a b).keyHeld m = s.keyHeld m := rfl

/-! ### writeBytes -/

@[simp] theorem State.writeBytes_V (a : Nat) (bs : List Byte) : (s.writeBytes a bs).V = s.V := rfl
@[simp] theorem State.writeBytes_pc (a : Nat) (bs : List Byte) : (s.writeBytes a bs).pc = s.pc := rfl
@[simp] theorem State.writeBytes_I (a : Nat) (bs : List Byte) : (s.writeBytes a bs).I = s.I := rfl
@[simp] theorem State.writeBytes_stack (a : Nat) (bs : List Byte) : (s.writeBytes a bs).stack = s.stack := rfl
@[simp] theorem State.writeBytes_DT (a : Nat) (bs : List Byte) : (s.writeBytes a bs).DT = s.DT := rfl
@[simp] theorem State.writeBytes_ST (a : Nat) (bs : List Byte) : (s.writeBytes a bs).ST = s.ST := rfl
@[simp] theorem State.writeBytes_key (a : Nat) (bs : List Byte) : (s.writeBytes a bs).key = s.key := rfl
@[simp] theorem State.writeBytes_disp (a : Nat) (bs : List Byte) : (s.writeBytes a bs).disp = s.disp := rfl
@[simp] theorem State.writeBytes_mem (a : Nat) (bs : List Byte) : (s.writeBytes a bs).mem = Memory.writeBytes s.cfg s.mem a bs := rfl
@[simp] theorem State.writeBytes_soundPlaying (a : Nat) (bs : List Byte) : (s.writeBytes a bs).soundPlaying = s.soundPlaying := rfl
@[simp] theorem State.writeBytes_fault (a : Nat) (bs : List Byte) : (s.writeBytes a bs).fault = s.fault := rfl
@[simp] theorem State.writeBytes_cfg (a : Nat) (bs : List Byte) : (s.writeBytes a bs).cfg = s.cfg := rfl
@[simp] theorem State.writeBytes_draws (a : Nat) (bs : List Byte) : (s.writeBytes a bs).draws = s.draws := rfl
@[simp] theorem State.writeBytes_schedule (a : Nat) (bs : List Byte) : (s.writeBytes a bs).schedule = s.schedule := rfl
@[simp] theorem State.writeBytes_signal (a : Nat) (bs : List Byte) : (s.writeBytes a bs).signal = s.signal := rfl
@[simp] theorem State.writeBytes_reg (a : Nat) (bs : List Byte) (r : Nibble) : (s.writeBytes a bs).reg r = s.reg r := rfl
@[simp] theorem State.writeBytes_cell (a : Nat) (bs : List Byte) (j : Nat) : (s.writeBytes a bs).cell j = s.cell j := rfl
@[simp] theorem State.writeBytes_isLit (a : Nat) (bs : List Byte) (j : Nat) : (s.writeBytes a bs).isLit j = s.isLit j := rfl
@[simp] theorem State.writeBytes_keyHeld (a : Nat) (bs : List Byte) (m : Nibble) : (s.writeBytes a bs).keyHeld m = s.keyHeld m := rfl

/-! ### clearDisp -/

@[simp] theorem State.clearDisp_V : (s.clearDisp).V = s.V := rfl
@[simp] theorem State.clearDisp_pc : (s.clearDisp).pc = s.pc := rfl
@[simp] theorem State.clearDisp_I : (s.clearDisp).I = s.I := rfl
@[simp] theorem State.clearDisp_stack : (s.clearDisp).stack = s.stack := rfl
@[simp] theorem State.clearDisp_DT : (s.clearDisp).DT = s.DT := rfl
@[simp] theorem State.clearDisp_ST : (s.clearDisp).ST = s.ST := rfl
@[simp] theorem State.clearDisp_key : (s.clearDisp).key = s.key := rfl
@[simp] theorem State.clearDisp_disp : (s.clearDisp).disp = [] := rfl
@[simp] theorem State.clearDisp_mem : (s.clearDisp).mem = s.mem := rfl
@[simp] theorem State.clearDisp_soundPlaying : (s.clearDisp).soundPlaying = s.soundPlaying := rfl
@[simp] theorem State.clearDisp_fault : (s.clearDisp).fault = s.fault := rfl
@[simp] theorem State.clearDisp_cfg : (s.clearDisp).cfg = s.cfg := rfl
@[simp] theorem State.clearDisp_draws : (s.clearDisp).draws = s.draws := rfl
@[simp] theorem State.clearDisp_schedule : (s.clearDisp).schedule = s.schedule := rfl
@[simp] theorem State.clearDisp_signal : (s.clearDisp).signal = s.signal := rfl
@[simp] theorem State.clearDisp_reg (r : Nibble) : (s.clearDisp).reg r = s.reg r := rfl
@[simp] theorem State.clearDisp_readByte (n : Nat) : (s.clearDisp).readByte n = s.readByte n := rfl
@[simp] theorem State.clearDisp_keyHeld (m : Nibble) : (s.clearDisp).keyHeld m = s.keyHeld m := rfl

/-! ### setDisp -/

@[simp] theorem State.setDisp_V (d : List Nat) : (s.setDisp d).V = s.V := rfl
@[simp] theorem State.setDisp_pc (d : List Nat) : (s.setDisp d).pc = s.pc := rfl
@[simp] theorem State.setDisp_I (d : List Nat) : (s.setDisp d).I = s.I := rfl
@[simp] theorem State.setDisp_stack (d : List Nat) : (s.setDisp d).stack = s.stack := rfl
@[simp] theorem State.setDisp_DT (d : List Nat) : (s.setDisp d).DT = s.DT := rfl
@[simp] theorem State.setDisp_ST (d : List Nat) : (s.setDisp d).ST = s.ST := rfl
@[simp] theorem State.setDisp_key (d : List Nat) : (s.setDisp d).key = s.key := rfl
@[simp] theorem State.setDisp_disp (d : List Nat) : (s.setDisp d).disp = d := rfl
@[simp] theorem State.setDisp_mem (d : List Nat) : (s.setDisp d).mem = s.mem := rfl
@[simp] theorem State.setDisp_soundPlaying (d : List Nat) : (s.setDisp d).soundPlaying = s.soundPlaying := rfl
@[simp] theorem State.setDisp_fault (d : List Nat) : (s.setDisp d).fault = s.fault := rfl
@[simp] theorem State.setDisp_cfg (d : List Nat) : (s.setDisp d).cfg = s.cfg := rfl
@[simp] theorem State.setDisp_draws (d : List Nat) : (s.setDisp d).draws = s.draws := rfl
@[simp] theorem State.setDisp_schedule (d : List Nat) : (s.setDisp d).schedule = s.schedule := rfl
@[simp] theorem State.setDisp_signal (d : List Nat) : (s.setDisp d).signal = s.signal := rfl
@[simp] theorem State.setDisp_reg (d : List Nat) (r : Nibble) : (s.setDisp d).reg r = s.reg r := rfl
@[simp] theorem State.setDisp_readByte (d : List Nat) (n : Nat) : (s.setDisp d).readByte n = s.readByte n := rfl
@[simp] theorem State.setDisp_keyHeld (d : List Nat) (m : Nibble) : (s.setDisp d).keyHeld m = s.keyHeld m := rfl

/-! ### setKey -/

@[simp] theorem State.setKey_V (k : Nibble) (b : Bool) : (s.setKey k b).V = s.V := rfl
@[simp] theorem State.setKey_pc (k : Nibble) (b : Bool) : (s.setKey k b).pc = s.pc := rfl
@[simp] theorem State.setKey_I (k : Nibble) (b : Bool) : (s.setKey k b).I = s.I := rfl
@[simp] theorem State.setKey_stack (k : Nibble) (b : Bool) : (s.setKey k b).stack = s.stack := rfl
@[simp] theorem State.setKey_DT (k : Nibble) (b : Bool) : (s.setKey k b).DT = s.DT := rfl
@[simp] theorem State.setKey_ST (k : Nibble) (b : Bool) : (s.setKey k b).ST = s.ST := rfl
@[simp] theorem State.setKey_key (k : Nibble) (b : Bool) : (s.setKey k b).key = s.key.set k.toNat b k.isLt := rfl
@[simp] theorem State.setKey_disp (k : Nibble) (b : Bool) : (s.setKey k b).disp = s.disp := rfl
@[simp] theorem State.setKey_mem (k : Nibble) (b : Bool) : (s.setKey k b).mem = s.mem := rfl
@[simp] theorem State.setKey_soundPlaying (k : Nibble) (b : Bool) : (s.setKey k b).soundPlaying = s.soundPlaying := rfl
@[simp] theorem State.setKey_fault (k : Nibble) (b : Bool) : (s.setKey k b).fault = s.fault := rfl
@[simp] theorem State.setKey_cfg (k : Nibble) (b : Bool) : (s.setKey k b).cfg = s.cfg := rfl
@[simp] theorem State.setKey_draws (k : Nibble) (b : Bool) : (s.setKey k b).draws = s.draws := rfl
@[simp] theorem State.setKey_schedule (k : Nibble) (b : Bool) : (s.setKey k b).schedule = s.schedule := rfl
@[simp] theorem State.setKey_signal (k : Nibble) (b : Bool) : (s.setKey k b).signal = s.signal := rfl
@[simp] theorem State.setKey_reg (k : Nibble) (b : Bool) (r : Nibble) : (s.setKey k b).reg r = s.reg r := rfl
@[simp] theorem State.setKey_readByte (k : Nibble) (b : Bool) (n : Nat) : (s.setKey k b).readByte n = s.readByte n := rfl
@[simp] theorem State.setKey_cell (k : Nibble) (b : Bool) (j : Nat) : (s.setKey k b).cell j = s.cell j := rfl
@[simp] theorem State.setKey_isLit (k : Nibble) (b : Bool) (j : Nat) : (s.setKey k b).isLit j = s.isLit j := rfl

/-! ### nextDraw -/

@[simp] theorem State.nextDraw_V : (s.nextDraw).V = s.V := rfl
@[simp] theorem State.nextDraw_pc : (s.nextDraw).pc = s.pc := rfl
@[simp] theorem State.nextDraw_I : (s.nextDraw).I = s.I := rfl
@[simp] theorem State.nextDraw_stack : (s.nextDraw).stack = s.stack := rfl
@[simp] theorem State.nextDraw_DT : (s.nextDraw).DT = s.DT := rfl
@[simp] theorem State.nextDraw_ST : (s.nextDraw).ST = s.ST := rfl
@[simp] theorem State.nextDraw_key : (s.nextDraw).key = s.key := rfl
@[simp] theorem State.nextDraw_disp : (s.nextDraw).disp = s.disp := rfl
@[simp] theorem State.nextDraw_mem : (s.nextDraw).mem = s.mem := rfl
@[simp] theorem State.nextDraw_soundPlaying : (s.nextDraw).soundPlaying = s.soundPlaying := rfl
@[simp] theorem State.nextDraw_fault : (s.nextDraw).fault = s.fault := rfl
@[simp] theorem State.nextDraw_cfg : (s.nextDraw).cfg = s.cfg := rfl
@[simp] theorem State.nextDraw_draws : (s.nextDraw).draws = s.draws + 1 := rfl
@[simp] theorem State.nextDraw_schedule : (s.nextDraw).schedule = s.schedule := rfl
@[simp] theorem State.nextDraw_signal : (s.nextDraw).signal = s.signal := rfl
@[simp] theorem State.nextDraw_reg (r : Nibble) : (s.nextDraw).reg r = s.reg r := rfl
@[simp] theorem State.nextDraw_readByte (n : Nat) : (s.nextDraw).readByte n = s.readByte n := rfl
@[simp] theorem State.nextDraw_cell (j : Nat) : (s.nextDraw).cell j = s.cell j := rfl
@[simp] theorem State.nextDraw_isLit (j : Nat) : (s.nextDraw).isLit j = s.isLit j := rfl
@[simp] theorem State.nextDraw_keyHeld (m : Nibble) : (s.nextDraw).keyHeld m = s.keyHeld m := rfl

/-! ### emit -/

@[simp] theorem State.emit_V (p : Option Signal) : (s.emit p).V = s.V := rfl
@[simp] theorem State.emit_pc (p : Option Signal) : (s.emit p).pc = s.pc := rfl
@[simp] theorem State.emit_I (p : Option Signal) : (s.emit p).I = s.I := rfl
@[simp] theorem State.emit_stack (p : Option Signal) : (s.emit p).stack = s.stack := rfl
@[simp] theorem State.emit_DT (p : Option Signal) : (s.emit p).DT = s.DT := rfl
@[simp] theorem State.emit_ST (p : Option Signal) : (s.emit p).ST = s.ST := rfl
@[simp] theorem State.emit_key (p : Option Signal) : (s.emit p).key = s.key := rfl
@[simp] theorem State.emit_disp (p : Option Signal) : (s.emit p).disp = s.disp := rfl
@[simp] theorem State.emit_mem (p : Option Signal) : (s.emit p).mem = s.mem := rfl
@[simp] theorem State.emit_soundPlaying (p : Option Signal) : (s.emit p).soundPlaying = s.soundPlaying := rfl
@[simp] theorem State.emit_fault (p : Option Signal) : (s.emit p).fault = s.fault := rfl
@[simp] theorem State.emit_cfg (p : Option Signal) : (s.emit p).cfg = s.cfg := rfl
@[simp] theorem State.emit_draws (p : Option Signal) : (s.emit p).draws = s.draws := rfl
@[simp] theorem State.emit_schedule (p : Option Signal) : (s.emit p).schedule = s.schedule := rfl
@[simp] theorem State.emit_signal (p : Option Signal) : (s.emit p).signal = p := rfl
@[simp] theorem State.emit_reg (p : Option Signal) (r : Nibble) : (s.emit p).reg r = s.reg r := rfl
@[simp] theorem State.emit_readByte (p : Option Signal) (n : Nat) : (s.emit p).readByte n = s.readByte n := rfl
@[simp] theorem State.emit_cell (p : Option Signal) (j : Nat) : (s.emit p).cell j = s.cell j := rfl
@[simp] theorem State.emit_isLit (p : Option Signal) (j : Nat) : (s.emit p).isLit j = s.isLit j := rfl
@[simp] theorem State.emit_keyHeld (p : Option Signal) (m : Nibble) : (s.emit p).keyHeld m = s.keyHeld m := rfl

/-! ### advance -/

@[simp] theorem State.advance_V : (s.advance).V = s.V := rfl
@[simp] theorem State.advance_pc : (s.advance).pc = s.pc + 2 := rfl
@[simp] theorem State.advance_I : (s.advance).I = s.I := rfl
@[simp] theorem State.advance_stack : (s.advance).stack = s.stack := rfl
@[simp] theorem State.advance_DT : (s.advance).DT = s.DT := rfl
@[simp] theorem State.advance_ST : (s.advance).ST = s.ST := rfl
@[simp] theorem State.advance_key : (s.advance).key = s.key := rfl
@[simp] theorem State.advance_disp : (s.advance).disp = s.disp := rfl
@[simp] theorem State.advance_mem : (s.advance).mem = s.mem := rfl
@[simp] theorem State.advance_soundPlaying : (s.advance).soundPlaying = s.soundPlaying := rfl
@[simp] theorem State.advance_fault : (s.advance).fault = s.fault := rfl
@[simp] theorem State.advance_cfg : (s.advance).cfg = s.cfg := rfl
@[simp] theorem State.advance_draws : (s.advance).draws = s.draws := rfl
@[simp] theorem State.advance_schedule : (s.advance).schedule = s.schedule := rfl
@[simp] theorem State.advance_signal : (s.advance).signal = s.signal := rfl
@[simp] theorem State.advance_reg (r : Nibble) : (s.advance).reg r = s.reg r := rfl
@[simp] theorem State.advance_readByte (n : Nat) : (s.advance).readByte n = s.readByte n := rfl
@[simp] theorem State.advance_cell (j : Nat) : (s.advance).cell j = s.cell j := rfl
@[simp] theorem State.advance_isLit (j : Nat) : (s.advance).isLit j = s.isLit j := rfl
@[simp] theorem State.advance_keyHeld (m : Nibble) : (s.advance).keyHeld m = s.keyHeld m := rfl

/-! ### skipIf -/

@[simp] theorem State.skipIf_V (c : Bool) : (s.skipIf c).V = s.V := by cases c <;> rfl

theorem State.skipIf_pc (c : Bool) : (s.skipIf c).pc = if c then s.pc + 2 else s.pc := by
  cases c <;> rfl

@[simp] theorem State.skipIf_I (c : Bool) : (s.skipIf c).I = s.I := by cases c <;> rfl

@[simp] theorem State.skipIf_stack (c : Bool) : (s.skipIf c).stack = s.stack := by cases c <;> rfl

@[simp] theorem State.skipIf_DT (c : Bool) : (s.skipIf c).DT = s.DT := by cases c <;> rfl

@[simp] theorem State.skipIf_ST (c : Bool) : (s.skipIf c).ST = s.ST := by cases c <;> rfl

@[simp] theorem State.skipIf_key (c : Bool) : (s.skipIf c).key = s.key := by cases c <;> rfl

@[simp] theorem State.skipIf_disp (c : Bool) : (s.skipIf c).disp = s.disp := by cases c <;> rfl

@[simp] theorem State.skipIf_mem (c : Bool) : (s.skipIf c).mem = s.mem := by cases c <;> rfl

@[simp] theorem State.skipIf_soundPlaying (c : Bool) : (s.skipIf c).soundPlaying = s.soundPlaying := by cases c <;> rfl

@[simp] theorem State.skipIf_fault (c : Bool) : (s.skipIf c).fault = s.fault := by cases c <;> rfl

@[simp] theorem State.skipIf_cfg (c : Bool) : (s.skipIf c).cfg = s.cfg := by cases c <;> rfl

@[simp] theorem State.skipIf_draws (c : Bool) : (s.skipIf c).draws = s.draws := by cases c <;> rfl

@[simp] theorem State.skipIf_schedule (c : Bool) : (s.skipIf c).schedule = s.schedule := by cases c <;> rfl

@[simp] theorem State.skipIf_signal (c : Bool) : (s.skipIf c).signal = s.signal := by cases c <;> rfl

@[simp] theorem State.skipIf_reg (c : Bool) (r : Nibble) : (s.skipIf c).reg r = s.reg r := by cases c <;> rfl

@[simp] theorem State.skipIf_readByte (c : Bool) (n : Nat) : (s.skipIf c).readByte n = s.readByte n := by cases c <;> rfl

@[simp] theorem State.skipIf_cell (c : Bool) (j : Nat) : (s.skipIf c).cell j = s.cell j := by cases c <;> rfl

@[simp] theorem State.skipIf_isLit (c : Bool) (j : Nat) : (s.skipIf c).isLit j = s.isLit j := by cases c <;> rfl

@[simp] theorem State.skipIf_keyHeld (c : Bool) (m : Nibble) : (s.skipIf c).keyHeld m = s.keyHeld m := by cases c <;> rfl

end Sys2Proof.Machine
end

