-- ==== Sys2Proof/Laws/Display.lean ====
section
/-!
SUPPORT. The display buffer: what a toggle, a pixel, a row and a sprite do to each cell, the collision they
report, and that they keep the canonical form.
-/

namespace Sys2Proof.Machine

theorem Disp.mem_light (d : List Nat) (j k : Nat) : k ∈ Disp.light d j ↔ k = j ∨ k ∈ d := by
  induction d with
  | nil => simp [Disp.light]
  | cons q rest ih =>
    simp only [Disp.light]
    split
    · simp
    · simp only [List.mem_cons, ih]
      tauto

theorem Disp.mem_putOut (d : List Nat) (j k : Nat) : k ∈ Disp.putOut d j ↔ k ≠ j ∧ k ∈ d := by
  induction d with
  | nil => simp [Disp.putOut]
  | cons q rest ih =>
    simp only [Disp.putOut]
    split
    · subst_vars; rw [ih, List.mem_cons]; tauto
    · simp only [List.mem_cons, ih]
      constructor
      · rintro (rfl | h)
        · exact ⟨by assumption, .inl rfl⟩
        · exact ⟨h.1, .inr h.2⟩
      · tauto

/-- A toggle turns exactly the one cell over. -/
theorem Disp.contains_toggle (d : List Nat) (j k : Nat) :
    (Disp.toggle d j).contains k = (d.contains k ^^ decide (k = j)) := by
  unfold Disp.toggle
  by_cases hk : k = j <;> by_cases hj : j ∈ d <;> simp [hk, hj, Disp.mem_putOut, Disp.mem_light]

theorem Disp.light_sorted {d : List Nat} {j : Nat} (hj : j ∉ d) (h : d.Pairwise (· < ·)) :
    (Disp.light d j).Pairwise (· < ·) := by
  induction d with
  | nil => simp [Disp.light]
  | cons q rest ih =>
    obtain ⟨h1, h2⟩ := List.pairwise_cons.1 h
    simp only [List.mem_cons, not_or] at hj
    simp only [Disp.light]
    split
    · refine List.pairwise_cons.2 ⟨fun p hp => ?_, h⟩
      rcases List.mem_cons.1 hp with rfl | hp
      · assumption
      · have := h1 p hp; omega
    · refine List.pairwise_cons.2 ⟨fun p hp => ?_, ih hj.2 h2⟩
      rcases (Disp.mem_light rest j p).1 hp with rfl | hp
      · omega
      · exact h1 p hp

theorem Disp.putOut_sorted {d : List Nat} (j : Nat) (h : d.Pairwise (· < ·)) :
    (Disp.putOut d j).Pairwise (· < ·) := by
  induction d with
  | nil => simp [Disp.putOut]
  | cons q rest ih =>
    obtain ⟨h1, h2⟩ := List.pairwise_cons.1 h
    simp only [Disp.putOut]
    split
    · exact ih h2
    · exact List.pairwise_cons.2 ⟨fun p hp => h1 p ((Disp.mem_putOut rest j p).1 hp).2, ih h2⟩

/-- A toggle of one of the 2048 cells keeps the canonical form. -/
theorem Disp.toggle_wf {d : List Nat} {j : Nat} (hj : j < dispW * dispH) (h : Disp.wf d) :
    Disp.wf (Disp.toggle d j) := by
  unfold Disp.toggle
  split
  · exact ⟨Disp.putOut_sorted j h.1, fun k hk => h.2 k ((Disp.mem_putOut d j k).1 hk).2⟩
  · rename_i hc
    refine ⟨Disp.light_sorted (fun hm => hc (List.contains_iff_mem.2 hm)) h.1, fun k hk => ?_⟩
    rcases (Disp.mem_light d j k).1 hk with rfl | hk
    · exact hj
    · exact h.2 k hk

theorem drawPixel_wf {bit : Bool} {cx cy : Nat} {p : Canvas} (h : Disp.wf p.1) :
    Disp.wf (drawPixel bit cx cy p).1 := by
  unfold drawPixel
  split
  · exact Disp.toggle_wf (by simp only [dispW, dispH]; omega) h
  · exact h

theorem drawColumns_wf {b : Byte} {x0 cy : Nat} (k : Nat) {p : Canvas} (h : Disp.wf p.1) :
    Disp.wf (drawColumns b x0 cy k p).1 := by
  induction k with
  | zero => exact h
  | succ k ih => exact drawPixel_wf ih

/-- A draw keeps the canonical form of the display. -/
theorem State.drawRows_wf {s : State} {x0 y0 : Nat} (k : Nat) (h : Disp.wf s.disp) :
    Disp.wf (s.drawRows x0 y0 k).1 := by
  induction k with
  | zero => exact h
  | succ k ih => exact drawColumns_wf 8 ih

end Sys2Proof.Machine
end

