-- ==== Sys2Proof/Laws/Memory.lean ====
section
/-!
SUPPORT. Memory: a read after a write, and that every operation keeps the canonical form.
-/

namespace Sys2Proof.Machine

theorem Memory.lookup_erase (m : List Host.Cell) (a b' : Nat) :
    Memory.lookup (Memory.erase m a) b' = if b' = a then none else Memory.lookup m b' := by
  induction m with
  | nil => simp [Memory.erase, Memory.lookup]
  | cons p rest ih =>
    obtain ⟨k, v⟩ := p
    simp only [Memory.erase, Memory.lookup]
    split
    · rw [ih]; grind
    · simp only [Memory.lookup, ih]; grind

theorem Memory.mem_put {m : List Host.Cell} {a : Nat} {b : Byte} {p : Host.Cell}
    (h : p ∈ Memory.put m a b) : p = (a, b) ∨ p ∈ m := by
  induction m with
  | nil => simpa [Memory.put] using h
  | cons q rest ih =>
    obtain ⟨k, v⟩ := q
    simp only [Memory.put] at h
    split at h
    · simpa using h
    · split at h
      · rcases List.mem_cons.1 h with h | h <;> simp [h]
      · rcases List.mem_cons.1 h with h | h
        · simp [h]
        · rcases ih h with h | h <;> simp [h]

theorem Memory.mem_erase {m : List Host.Cell} {a : Nat} {p : Host.Cell}
    (h : p ∈ Memory.erase m a) : p ∈ m := by
  induction m with
  | nil => simp [Memory.erase] at h
  | cons q rest ih =>
    obtain ⟨k, v⟩ := q
    simp only [Memory.erase] at h
    split at h
    · exact List.mem_cons_of_mem _ (ih h)
    · rcases List.mem_cons.1 h with h | h
      · simp [h]
      · exact List.mem_cons_of_mem _ (ih h)

theorem Memory.put_sorted {m : List Host.Cell} (a : Nat) (b : Byte) (h : m.Pairwise (fun p q => p.1 < q.1)) :
    (Memory.put m a b).Pairwise (fun p q => p.1 < q.1) := by
  induction m with
  | nil => simp [Memory.put]
  | cons q rest ih =>
    obtain ⟨k, v⟩ := q
    obtain ⟨h1, h2⟩ := List.pairwise_cons.1 h
    simp only [Memory.put]
    split
    · refine List.pairwise_cons.2 ⟨fun p hp => ?_, h⟩
      rcases List.mem_cons.1 hp with rfl | hp
      · assumption
      · have := h1 p hp; simp only at this ⊢; omega
    · split
      · subst_vars; exact List.pairwise_cons.2 ⟨h1, h2⟩
      · refine List.pairwise_cons.2 ⟨fun p hp => ?_, ih h2⟩
        rcases Memory.mem_put hp with rfl | hp
        · simp only; omega
        · exact h1 p hp

theorem Memory.erase_sorted {m : List Host.Cell} (a : Nat) (h : m.Pairwise (fun p q => p.1 < q.1)) :
    (Memory.erase m a).Pairwise (fun p q => p.1 < q.1) := by
  induction m with
  | nil => simp [Memory.erase]
  | cons q rest ih =>
    obtain ⟨k, v⟩ := q
    obtain ⟨h1, h2⟩ := List.pairwise_cons.1 h
    simp only [Memory.erase]
    split
    · exact ih h2
    · exact List.pairwise_cons.2 ⟨fun p hp => h1 p (Memory.mem_erase hp), ih h2⟩

/-- A write keeps the canonical form. -/
theorem Memory.write_wf {c : Config} {m : List Host.Cell} (a : Nat) (b : Byte) (h : Memory.wf c m) :
    Memory.wf c (Memory.write c m a b) := by
  unfold Memory.write
  split
  · split
    · exact ⟨Memory.erase_sorted a h.1, fun p hp => h.2 p (Memory.mem_erase hp)⟩
    · refine ⟨Memory.put_sorted a b h.1, fun p hp => ?_⟩
      rcases Memory.mem_put hp with rfl | hp
      · exact ⟨by assumption, by assumption⟩
      · exact h.2 p hp
  · exact h

/-- A write of several bytes keeps the canonical form. -/
theorem Memory.writeBytes_wf {c : Config} (bs : List Byte) {m : List Host.Cell} (a : Nat) (h : Memory.wf c m) :
    Memory.wf c (Memory.writeBytes c m a bs) := by
  induction bs generalizing m a with
  | nil => exact h
  | cons b bs ih => exact ih (a + 1) (Memory.write_wf a b h)

theorem Memory.nil_wf (c : Config) : Memory.wf c [] := by simp [Memory.wf]

theorem Memory.lookup_put_ne (m : List Host.Cell) {a a' : Nat} (b : Byte) (h : a' ≠ a) :
    Memory.lookup (Memory.put m a b) a' = Memory.lookup m a' := by
  induction m with
  | nil => simp [Memory.put, Memory.lookup, Ne.symm h]
  | cons p rest ih =>
    obtain ⟨k, v⟩ := p
    simp only [Memory.put]
    split
    · simp [Memory.lookup, Ne.symm h]
    · split
      · subst_vars; simp [Memory.lookup, Ne.symm h]
      · simp [Memory.lookup, ih]

theorem Memory.lookup_put_self (m : List Host.Cell) (a : Nat) (b : Byte) :
    Memory.lookup (Memory.put m a b) a = some b := by
  induction m with
  | nil => simp [Memory.put, Memory.lookup]
  | cons p rest ih =>
    obtain ⟨k, v⟩ := p
    simp only [Memory.put]
    split
    · simp [Memory.lookup]
    · split
      · simp [Memory.lookup]
      · have : ¬ k = a := fun e => by omega
        simp [Memory.lookup, ih, this]

/-- A read after a write, whatever the list: the byte written at an address of memory, every other as before. -/
theorem Memory.read_write (c : Config) (m : List Host.Cell) (a a' : Nat) (b : Byte) :
    Memory.read c (Memory.write c m a b) a' = if a' = a ∧ a < memSize then b else Memory.read c m a' := by
  unfold Memory.write Memory.read
  split
  · rename_i ha
    split
    · rw [Memory.lookup_erase]
      by_cases h : a' = a
      · subst h; simp [*]
      · simp [h]
    · by_cases h : a' = a
      · subst h; simp [ha, Memory.lookup_put_self]
      · simp [h, Memory.lookup_put_ne _ _ h]
  · rename_i ha
    simp [ha]

/-- A read after a write of several bytes. -/
theorem Memory.read_writeBytes (c : Config) (bs : List Byte) (m : List Host.Cell) (a a' : Nat) :
    Memory.read c (Memory.writeBytes c m a bs) a' =
      if h : a ≤ a' ∧ a' < a + bs.length ∧ a' < memSize then bs[a' - a]'(by omega) else Memory.read c m a' := by
  induction bs generalizing m a with
  | nil => simp only [Memory.writeBytes, List.length_nil]; rw [dif_neg (by omega)]
  | cons b bs ih =>
    rw [Memory.writeBytes, ih, Memory.read_write]
    simp only [List.length_cons]
    by_cases h1 : a' = a
    · subst h1
      rw [dif_neg (by omega)]
      by_cases h2 : a' < memSize
      · rw [if_pos ⟨rfl, h2⟩, dif_pos ⟨by omega, by omega, h2⟩]
        simp
      · rw [if_neg (fun h => h2 h.2), dif_neg (fun h => h2 h.2.2)]
    · by_cases h2 : a + 1 ≤ a' ∧ a' < a + 1 + bs.length ∧ a' < memSize
      · rw [dif_pos h2, dif_pos ⟨by omega, by omega, h2.2.2⟩]
        have : a' - a = (a' - (a + 1)) + 1 := by omega
        simp [this]
      · rw [dif_neg h2, if_neg (fun h => h1 h.1), dif_neg (fun h => h2 ⟨by omega, by omega, h.2.2⟩)]

/-- The same of the state's own read and write. -/
theorem State.readByte_writeByte (s : State) (a a' : Nat) (b : Byte) :
    (s.writeByte a b).readByte a' = if a' = a ∧ a < memSize then b else s.readByte a' :=
  Memory.read_write s.cfg s.mem a a' b

theorem State.readByte_writeBytes (s : State) (a a' : Nat) (bs : List Byte) :
    (s.writeBytes a bs).readByte a' =
      if h : a ≤ a' ∧ a' < a + bs.length ∧ a' < memSize then bs[a' - a]'(by omega) else s.readByte a' :=
  Memory.read_writeBytes s.cfg bs s.mem a a'

end Sys2Proof.Machine
end

