-- ==== Sys2Proof/Laws/Ops.lean ====
section
/-!
SUPPORT. One lemma per shared operation: what a read gives after it.
-/

namespace Sys2Proof.Machine

variable (s : State)

/-- A register after a write to a register. -/
theorem State.reg_setReg (x r : Nibble) (v : Byte) :
    (s.setReg x v).reg r = if r = x then v else s.reg r := by
  unfold State.reg State.setReg
  simp only [Vector.getElem_set]
  by_cases h : r = x
  · simp [h]
  · have : ¬ x.toNat = r.toNat := fun e => h (BitVec.eq_of_toNat_eq e.symm)
    simp [h, this]

/-- A key flag after a key event. -/
theorem State.keyHeld_setKey (k m : Nibble) (b : Bool) :
    (s.setKey k b).keyHeld m = if m = k then b else s.keyHeld m := by
  unfold State.keyHeld State.setKey
  simp only [Vector.getElem_set]
  by_cases h : m = k
  · simp [h]
  · have : ¬ k.toNat = m.toNat := fun e => h (BitVec.eq_of_toNat_eq e.symm)
    simp [h, this]

@[simp] theorem State.lowRegs_length (k : Nat) : (s.lowRegs k).length = k := by
  induction k with
  | zero => rfl
  | succ k ih => simp [State.lowRegs, ih]

/-- The `i`-th stored register of a block transfer is `V[i]`. -/
theorem State.lowRegs_getElem (k i : Nat) (h : i < (s.lowRegs k).length) :
    (s.lowRegs k)[i] = s.reg (BitVec.ofNat 4 i) := by
  induction k with
  | zero => simp [State.lowRegs] at h
  | succ k ih =>
    simp only [State.lowRegs, List.getElem_append, State.lowRegs_length]
    split
    · exact ih _
    · have : i = k := by simp at h; omega
      simp [this]

/-- A block load changes registers only. -/
theorem State.loadRegs_eq (a k : Nat) : s.loadRegs a k = { s with V := (s.loadRegs a k).V } := by
  induction k with
  | zero => rfl
  | succ k ih =>
    simp only [State.loadRegs]
    rw [ih]
    rfl

/-- A register after a block load of `k` registers from `a`. -/
theorem State.reg_loadRegs (a k : Nat) (hk : k ≤ 16) (r : Nibble) :
    (s.loadRegs a k).reg r = if r.toNat < k then s.readByte (a + r.toNat) else s.reg r := by
  induction k with
  | zero => simp [State.loadRegs]
  | succ k ih =>
    have hm : k % 16 = k := Nat.mod_eq_of_lt (by omega)
    simp only [State.loadRegs, State.reg_setReg, ih (by omega)]
    by_cases h : r = BitVec.ofNat 4 k
    · subst h; simp [hm]
    · have : r.toNat ≠ k := fun e => h (by rw [← e]; simp)
      simp only [h, if_false]
      split <;> split <;> first | rfl | omega

/-- A raised fault is a next state that differs in the record alone. -/
theorem State.raise_next (c : Cause) (w : Word) :
    s.raise c w = .next { s with fault := some ⟨c, w, s.pc⟩ } := rfl

/-- An instruction that touches `k` bytes from `I` reaches above memory. -/
theorem State.beyondMemory_iff (k : Nat) :
    s.beyondMemory k = true ↔ k > 0 ∧ s.I.toNat + (k - 1) > 4095 := by
  simp [State.beyondMemory, State.ea]

end Sys2Proof.Machine
end

