-- ==== Sys2Proof/Laws/PerInstr.lean ====
section
/-!
SUPPORT. Per instruction: its encoding lies in its own row of the opcode map (30_encoding.md R64), at every
operand value, and it is well formed (R62).
-/

namespace Sys2Proof.Laws.EncodingRow

/-- The encoding of `i` matches the row of the opcode map with `i`'s number, and `i` is well formed. -/
def Statement (i : Instr) : Prop :=
  i.wf = true ∧ ∃ r ∈ opcodeRows, r.row = i.row ∧ encode i &&& r.mask = r.pattern

/-- Format NNN: only the primary key is under the mask. -/
theorem mask_nnn (op : Nibble) (nnn : Addr12) : (op ++ nnn : Word) &&& 0xF000 = op ++ (0 : Addr12) := by
  apply BitVec.eq_of_getLsbD_eq
  intro i hi
  interval_cases i <;> simp only [BitVec.getLsbD_and, BitVec.getLsbD_append] <;> simp

/-- Format XKK: only the primary key is under the mask. -/
theorem mask_xkk (op x : Nibble) (kk : Byte) : (op ++ x ++ kk : Word) &&& 0xF000 = op ++ (0 : Addr12) := by
  apply BitVec.eq_of_getLsbD_eq
  intro i hi
  interval_cases i <;> simp only [BitVec.getLsbD_and, BitVec.getLsbD_append] <;> simp

/-- Format X: the primary key and the low byte are under the mask. -/
theorem mask_x (op x : Nibble) (fn : Byte) :
    (op ++ x ++ fn : Word) &&& 0xF0FF = op ++ (0 : Nibble) ++ fn := by
  apply BitVec.eq_of_getLsbD_eq
  intro i hi
  interval_cases i <;> simp only [BitVec.getLsbD_and, BitVec.getLsbD_append] <;> simp

/-- Format XY: the primary key and the low digit are under the mask. -/
theorem mask_xy (op x y sub : Nibble) :
    (op ++ x ++ y ++ sub : Word) &&& 0xF00F = op ++ (0 : Byte) ++ sub := by
  apply BitVec.eq_of_getLsbD_eq
  intro i hi
  interval_cases i <;> simp only [BitVec.getLsbD_and, BitVec.getLsbD_append] <;> simp

/-- Format XYN: only the primary key is under the mask. -/
theorem mask_xyn (op x y n : Nibble) : (op ++ x ++ y ++ n : Word) &&& 0xF000 = op ++ (0 : Addr12) := by
  apply BitVec.eq_of_getLsbD_eq
  intro i hi
  interval_cases i <;> simp only [BitVec.getLsbD_and, BitVec.getLsbD_append] <;> simp

theorem cls : Statement (.cls) :=
  ⟨rfl, ⟨1, 0x00E0, 0xFFFF⟩, by decide, rfl, rfl⟩

theorem ret : Statement (.ret) :=
  ⟨rfl, ⟨2, 0x00EE, 0xFFFF⟩, by decide, rfl, rfl⟩

theorem jp (nnn : Addr12) : Statement (.jp nnn) :=
  ⟨rfl, ⟨3, 0x1000, 0xF000⟩, by decide, rfl, (mask_nnn _ nnn).trans rfl⟩

theorem call (nnn : Addr12) : Statement (.call nnn) :=
  ⟨rfl, ⟨4, 0x2000, 0xF000⟩, by decide, rfl, (mask_nnn _ nnn).trans rfl⟩

theorem seImm (x : Nibble) (kk : Byte) : Statement (.seImm x kk) :=
  ⟨rfl, ⟨5, 0x3000, 0xF000⟩, by decide, rfl, (mask_xkk _ x kk).trans rfl⟩

theorem sneImm (x : Nibble) (kk : Byte) : Statement (.sneImm x kk) :=
  ⟨rfl, ⟨6, 0x4000, 0xF000⟩, by decide, rfl, (mask_xkk _ x kk).trans rfl⟩

theorem seReg (x y : Nibble) : Statement (.seReg x y) :=
  ⟨rfl, ⟨7, 0x5000, 0xF00F⟩, by decide, rfl, (mask_xy _ x y _).trans rfl⟩

theorem ldImm (x : Nibble) (kk : Byte) : Statement (.ldImm x kk) :=
  ⟨rfl, ⟨8, 0x6000, 0xF000⟩, by decide, rfl, (mask_xkk _ x kk).trans rfl⟩

theorem addImm (x : Nibble) (kk : Byte) : Statement (.addImm x kk) :=
  ⟨rfl, ⟨9, 0x7000, 0xF000⟩, by decide, rfl, (mask_xkk _ x kk).trans rfl⟩

theorem ldReg (x y : Nibble) : Statement (.ldReg x y) :=
  ⟨rfl, ⟨10, 0x8000, 0xF00F⟩, by decide, rfl, (mask_xy _ x y _).trans rfl⟩

theorem orReg (x y : Nibble) : Statement (.orReg x y) :=
  ⟨rfl, ⟨11, 0x8001, 0xF00F⟩, by decide, rfl, (mask_xy _ x y _).trans rfl⟩

theorem andReg (x y : Nibble) : Statement (.andReg x y) :=
  ⟨rfl, ⟨12, 0x8002, 0xF00F⟩, by decide, rfl, (mask_xy _ x y _).trans rfl⟩

theorem xorReg (x y : Nibble) : Statement (.xorReg x y) :=
  ⟨rfl, ⟨13, 0x8003, 0xF00F⟩, by decide, rfl, (mask_xy _ x y _).trans rfl⟩

theorem addReg (x y : Nibble) : Statement (.addReg x y) :=
  ⟨rfl, ⟨14, 0x8004, 0xF00F⟩, by decide, rfl, (mask_xy _ x y _).trans rfl⟩

theorem subReg (x y : Nibble) : Statement (.subReg x y) :=
  ⟨rfl, ⟨15, 0x8005, 0xF00F⟩, by decide, rfl, (mask_xy _ x y _).trans rfl⟩

theorem shr (x y : Nibble) : Statement (.shr x y) :=
  ⟨rfl, ⟨16, 0x8006, 0xF00F⟩, by decide, rfl, (mask_xy _ x y _).trans rfl⟩

theorem subnReg (x y : Nibble) : Statement (.subnReg x y) :=
  ⟨rfl, ⟨17, 0x8007, 0xF00F⟩, by decide, rfl, (mask_xy _ x y _).trans rfl⟩

theorem shl (x y : Nibble) : Statement (.shl x y) :=
  ⟨rfl, ⟨18, 0x800E, 0xF00F⟩, by decide, rfl, (mask_xy _ x y _).trans rfl⟩

theorem sneReg (x y : Nibble) : Statement (.sneReg x y) :=
  ⟨rfl, ⟨19, 0x9000, 0xF00F⟩, by decide, rfl, (mask_xy _ x y _).trans rfl⟩

theorem ldI (nnn : Addr12) : Statement (.ldI nnn) :=
  ⟨rfl, ⟨20, 0xA000, 0xF000⟩, by decide, rfl, (mask_nnn _ nnn).trans rfl⟩

theorem jpV0 (nnn : Addr12) : Statement (.jpV0 nnn) :=
  ⟨rfl, ⟨21, 0xB000, 0xF000⟩, by decide, rfl, (mask_nnn _ nnn).trans rfl⟩

theorem rnd (x : Nibble) (kk : Byte) : Statement (.rnd x kk) :=
  ⟨rfl, ⟨22, 0xC000, 0xF000⟩, by decide, rfl, (mask_xkk _ x kk).trans rfl⟩

theorem drw (x y n : Nibble) : Statement (.drw x y n) :=
  ⟨rfl, ⟨23, 0xD000, 0xF000⟩, by decide, rfl, (mask_xyn _ x y n).trans rfl⟩

theorem skp (x : Nibble) : Statement (.skp x) :=
  ⟨rfl, ⟨24, 0xE09E, 0xF0FF⟩, by decide, rfl, (mask_x _ x _).trans rfl⟩

theorem sknp (x : Nibble) : Statement (.sknp x) :=
  ⟨rfl, ⟨25, 0xE0A1, 0xF0FF⟩, by decide, rfl, (mask_x _ x _).trans rfl⟩

theorem ldVxDt (x : Nibble) : Statement (.ldVxDt x) :=
  ⟨rfl, ⟨26, 0xF007, 0xF0FF⟩, by decide, rfl, (mask_x _ x _).trans rfl⟩

theorem ldVxK (x : Nibble) : Statement (.ldVxK x) :=
  ⟨rfl, ⟨27, 0xF00A, 0xF0FF⟩, by decide, rfl, (mask_x _ x _).trans rfl⟩

theorem ldDtVx (x : Nibble) : Statement (.ldDtVx x) :=
  ⟨rfl, ⟨28, 0xF015, 0xF0FF⟩, by decide, rfl, (mask_x _ x _).trans rfl⟩

theorem ldStVx (x : Nibble) : Statement (.ldStVx x) :=
  ⟨rfl, ⟨29, 0xF018, 0xF0FF⟩, by decide, rfl, (mask_x _ x _).trans rfl⟩

theorem addI (x : Nibble) : Statement (.addI x) :=
  ⟨rfl, ⟨30, 0xF01E, 0xF0FF⟩, by decide, rfl, (mask_x _ x _).trans rfl⟩

theorem ldF (x : Nibble) : Statement (.ldF x) :=
  ⟨rfl, ⟨31, 0xF029, 0xF0FF⟩, by decide, rfl, (mask_x _ x _).trans rfl⟩

theorem ldB (x : Nibble) : Statement (.ldB x) :=
  ⟨rfl, ⟨32, 0xF033, 0xF0FF⟩, by decide, rfl, (mask_x _ x _).trans rfl⟩

theorem ldMemVx (x : Nibble) : Statement (.ldMemVx x) :=
  ⟨rfl, ⟨33, 0xF055, 0xF0FF⟩, by decide, rfl, (mask_x _ x _).trans rfl⟩

theorem ldVxMem (x : Nibble) : Statement (.ldVxMem x) :=
  ⟨rfl, ⟨34, 0xF065, 0xF0FF⟩, by decide, rfl, (mask_x _ x _).trans rfl⟩

end Sys2Proof.Laws.EncodingRow
end

