-- ==== Sys2Proof/Tests/Slice0.lean ====
section
/-!
SUPPORT. Tests: the refused image, one word of each constructor, one step of each instruction (expected results from
95_test_vectors.md, whose names T1, A3, M9, ... the docstrings give), and a witness for every statement with
hypotheses.
-/

namespace Sys2Proof.Tests

open Sys2Proof Sys2Proof.Machine

/-! ### Builders -/

/-- The reset state with some registers and `I` set. -/
def start (regs : List (Nibble × Byte)) (i : Word) : State :=
  regs.foldl (fun s p => s.setReg p.1 p.2) (State.reset.setI i)

/-- The reset state with bytes stored from address 0x300, `I = 0x300`, and some registers set. -/
def startMem (regs : List (Nibble × Byte)) (bytes : List Byte) : State :=
  (start regs 0x300).writeBytes 0x300 bytes

/-- The next state of one step on the word `w` placed at `pc`. -/
def after (w : Nat) (s : State) : Option State :=
  match step (s.withFetchWord 16 w) with
  | .next t => some t
  | .fault _ => none
  | .refused _ => none

/-- What a test reads of the state after one step on the word `w`. -/
def look (w : Nat) (s : State) {α : Type} (f : State → α) : Option α := (after w s).map f

/-! ### Well-formedness: the smoke test -/

/-- An image one byte too long is refused (R181). -/
theorem test_image_too_long : imageFits (List.replicate 3585 0) = false := by
  simp only [imageFits, maxImage, List.length_replicate]; decide

/-- The longest image that fits (R44). -/
theorem test_image_longest : imageFits (List.replicate 3584 0) = true := by
  simp only [imageFits, maxImage, List.length_replicate]; decide

/-- A memory list that holds an entry equal to the reset contents is not in canonical form. -/
theorem test_memory_not_canonical : ¬ Memory.wf Config.default [(0x300, 0x00)] := by decide

/-- A memory list out of order is not in canonical form. -/
theorem test_memory_not_sorted : ¬ Memory.wf Config.default [(0x301, 0x01), (0x300, 0x02)] := by decide

/-- A memory list with an address outside the address space is not in canonical form. -/
theorem test_memory_outside : ¬ Memory.wf Config.default [(0x1000, 0x01)] := by decide

/-- A display list with a cell off the screen is not in canonical form. -/
theorem test_display_outside : ¬ Disp.wf [2048] := by decide

/-! ### Decoding, words W1 to W39 of 95_test_vectors.md -/

/-- W1 to W4. -/
theorem test_decode_control : decode 0x00E0 = .instr .cls ∧ decode 0x00EE = .instr .ret ∧
    decode 0x1ABC = .instr (.jp 0xABC) ∧ decode 0x2ABC = .instr (.call 0xABC) := by decide

/-- W5 to W7, W19, W21. -/
theorem test_decode_skips : decode 0x3A7F = .instr (.seImm 10 0x7F) ∧
    decode 0x4A7F = .instr (.sneImm 10 0x7F) ∧ decode 0x5AB0 = .instr (.seReg 10 11) ∧
    decode 0x9AB0 = .instr (.sneReg 10 11) ∧ decode 0xBABC = .instr (.jpV0 0xABC) := by decide

/-- W8 to W13. -/
theorem test_decode_loads_logic : decode 0x6A7F = .instr (.ldImm 10 0x7F) ∧
    decode 0x7A7F = .instr (.addImm 10 0x7F) ∧ decode 0x8AB0 = .instr (.ldReg 10 11) ∧
    decode 0x8AB1 = .instr (.orReg 10 11) ∧ decode 0x8AB2 = .instr (.andReg 10 11) ∧
    decode 0x8AB3 = .instr (.xorReg 10 11) := by decide

/-- W14 to W18, W22. -/
theorem test_decode_arithmetic : decode 0x8AB4 = .instr (.addReg 10 11) ∧
    decode 0x8AB5 = .instr (.subReg 10 11) ∧ decode 0x8AB6 = .instr (.shr 10 11) ∧
    decode 0x8AB7 = .instr (.subnReg 10 11) ∧ decode 0x8ABE = .instr (.shl 10 11) ∧
    decode 0xCA7F = .instr (.rnd 10 0x7F) := by decide

/-- W20, W23 to W29. -/
theorem test_decode_display_keys_timers : decode 0xAABC = .instr (.ldI 0xABC) ∧
    decode 0xDAB5 = .instr (.drw 10 11 5) ∧ decode 0xEA9E = .instr (.skp 10) ∧
    decode 0xEAA1 = .instr (.sknp 10) ∧ decode 0xFA07 = .instr (.ldVxDt 10) ∧
    decode 0xFA0A = .instr (.ldVxK 10) ∧ decode 0xFA15 = .instr (.ldDtVx 10) ∧
    decode 0xFA18 = .instr (.ldStVx 10) := by decide

/-- W30 to W34. -/
theorem test_decode_index_memory : decode 0xFA1E = .instr (.addI 10) ∧
    decode 0xFA29 = .instr (.ldF 10) ∧ decode 0xFA33 = .instr (.ldB 10) ∧
    decode 0xFA55 = .instr (.ldMemVx 10) ∧ decode 0xFA65 = .instr (.ldVxMem 10) := by decide

/-- W35, W36. -/
theorem test_decode_unknown_0_5_9 : decode 0x0000 = .unknown 0x0000 ∧ decode 0x00E1 = .unknown 0x00E1 ∧
    decode 0x00EF = .unknown 0x00EF ∧ decode 0x0FFF = .unknown 0x0FFF ∧ decode 0x5AB1 = .unknown 0x5AB1 ∧
    decode 0x5ABF = .unknown 0x5ABF ∧ decode 0x9AB1 = .unknown 0x9AB1 ∧ decode 0x9ABF = .unknown 0x9ABF := by
  decide

/-- W37. -/
theorem test_decode_unknown_8 : decode 0x8AB8 = .unknown 0x8AB8 ∧ decode 0x8AB9 = .unknown 0x8AB9 ∧
    decode 0x8ABA = .unknown 0x8ABA ∧ decode 0x8ABB = .unknown 0x8ABB ∧ decode 0x8ABC = .unknown 0x8ABC ∧
    decode 0x8ABD = .unknown 0x8ABD ∧ decode 0x8ABF = .unknown 0x8ABF := by decide

/-- W38, W39. -/
theorem test_decode_unknown_e_f : decode 0xEA9D = .unknown 0xEA9D ∧ decode 0xEAA0 = .unknown 0xEAA0 ∧
    decode 0xEAFF = .unknown 0xEAFF ∧ decode 0xFA00 = .unknown 0xFA00 ∧ decode 0xFA08 = .unknown 0xFA08 ∧
    decode 0xFA16 = .unknown 0xFA16 ∧ decode 0xFA56 = .unknown 0xFA56 ∧ decode 0xFA75 = .unknown 0xFA75 ∧
    decode 0xFAFF = .unknown 0xFAFF := by decide

/-- The table numbering: `DRW` from its one word, and a word that is unknown. -/
theorem test_decodeTableWord : decodeTableWord 16 0xD125 = some (.drw 1 2 5) ∧
    decodeTableWord 16 0x0123 = none := by decide

/-- E10a: the byte at the lower address is the high byte. -/
theorem test_decodeBytes : decodeBytes [0x12, 0x34, 0x56] = some (.instr (.jp 0x234), [0x56]) := by decide

/-! ### One step, control transfer -/

/-- T2. -/
theorem test_ret : look 0x00EE ((State.reset.push 0x206).push 0x30A) (fun t => (t.pc, t.stack)) =
    some (0x30A, [0x206]) := by decide

/-- T3. -/
theorem test_ret_underflow : look 0x00EE State.reset (fun t => (t.pc, t.faultOut)) =
    some (0x200, some (2, 0x00EE, 0x200)) := by decide

/-- T5. -/
theorem test_jp : look 0x1234 State.reset (·.pc) = some 0x234 := by decide

/-- T10, its first step. -/
theorem test_jpV0 : look 0xBFFF (start [(0, 0xFF)] 0) (fun t => (t.pc, t.fault)) = some (0x10FE, none) := by
  decide

/-- T11. -/
theorem test_jpV0_not_vx : look 0xB2FF (start [(2, 0x44)] 0) (·.pc) = some 0x2FF := by decide

/-- T12. -/
theorem test_call : look 0x2300 (State.reset.setPc 0x204) (fun t => (t.pc, t.stack)) =
    some (0x300, [0x206]) := by decide

/-- T14. -/
theorem test_call_overflow : look 0x2400
    { (((State.reset.push 0x206).push 0x302).setPc 0x400) with
      cfg := ⟨defaultFont, some 2⟩ } (fun t => (t.pc, t.faultOut)) =
    some (0x400, some (6, 0x2400, 0x400)) := by decide

/-- T16, T17. -/
theorem test_seImm : look 0x3342 (start [(3, 0x42)] 0) (·.pc) = some 0x204 ∧
    look 0x3342 (start [(3, 0x41)] 0) (·.pc) = some 0x202 := by decide

/-- T18, T19. -/
theorem test_sneImm : look 0x4A00 ((start [(10, 0x01)] 0).setPc 0x210) (·.pc) = some 0x214 ∧
    look 0x4A00 (State.reset.setPc 0x210) (·.pc) = some 0x212 := by decide

/-- T20, T21. -/
theorem test_seReg : look 0x5120 (start [(1, 7), (2, 7)] 0) (·.pc) = some 0x204 ∧
    look 0x5120 (start [(1, 7), (2, 8)] 0) (·.pc) = some 0x202 := by decide

/-- T23, T24. -/
theorem test_sneReg : look 0x9120 (start [(1, 7), (2, 8)] 0) (·.pc) = some 0x204 ∧
    look 0x9120 (start [(1, 7), (2, 7)] 0) (·.pc) = some 0x202 := by decide

/-- T26, its first step: a skip past the end of memory raises nothing at the skip. -/
theorem test_skip_off_the_end : look 0x3000 (State.reset.setPc 0xFFE) (fun t => (t.pc, t.fault)) =
    some (0x1002, none) := by decide

/-! ### One step, registers and ALU -/

/-- A1, A2. -/
theorem test_ldImm : look 0x6A05 State.reset (·.reg 10) = some 0x05 ∧
    look 0x6FFF State.reset (·.reg 15) = some 0xFF := by decide

/-- A4. -/
theorem test_addImm : look 0x7301 (start [(3, 0xFF), (15, 0x01)] 0) (fun t => (t.reg 3, t.reg 15)) =
    some (0x00, 0x01) := by decide

/-- A5. -/
theorem test_addImm_vf : look 0x7FFF (start [(15, 0x01)] 0) (·.reg 15) = some 0x00 := by decide

/-- A7. -/
theorem test_ldReg : look 0x8120 (start [(2, 0x7E)] 0) (·.reg 1) = some 0x7E := by decide

/-- A8. -/
theorem test_orReg : look 0x8121 (start [(1, 0x0F), (2, 0xF0), (15, 1)] 0) (fun t => (t.reg 1, t.reg 15)) =
    some (0xFF, 1) := by decide

/-- A9. -/
theorem test_andReg : look 0x8122 (start [(1, 0x3C), (2, 0x0F), (15, 1)] 0) (fun t => (t.reg 1, t.reg 15)) =
    some (0x0C, 1) := by decide

/-- A10. -/
theorem test_xorReg : look 0x8123 (start [(1, 0xFF), (2, 0x0F), (15, 1)] 0) (fun t => (t.reg 1, t.reg 15)) =
    some (0xF0, 1) := by decide

/-- A13, A14: sums 255 and 256. -/
theorem test_addReg : look 0x8124 (start [(1, 0xFE), (2, 0x01), (15, 1)] 0) (fun t => (t.reg 1, t.reg 15)) =
      some (0xFF, 0) ∧
    look 0x8124 (start [(1, 0xFF), (2, 0x01)] 0) (fun t => (t.reg 1, t.reg 15)) = some (0x00, 1) := by decide

/-- A16, A18: `x = 15` and `y = 15`. -/
theorem test_addReg_vf : look 0x8F14 (start [(15, 0xF0), (1, 0x20)] 0) (·.reg 15) = some 0x01 ∧
    look 0x81F4 (start [(1, 0xFF), (15, 0x01)] 0) (fun t => (t.reg 1, t.reg 15)) = some (0x00, 1) := by decide

/-- A19, A21. -/
theorem test_subReg : look 0x8125 (start [(1, 0x10), (2, 0x20), (15, 1)] 0) (fun t => (t.reg 1, t.reg 15)) =
      some (0xF0, 0) ∧
    look 0x8125 (start [(1, 0x33), (2, 0x33)] 0) (fun t => (t.reg 1, t.reg 15)) = some (0x00, 1) := by decide

/-- A23, A25. -/
theorem test_subReg_vf : look 0x8F15 (start [(15, 0x05), (1, 0x03)] 0) (·.reg 15) = some 0x01 ∧
    look 0x81F5 (start [(15, 0x01)] 0) (fun t => (t.reg 1, t.reg 15)) = some (0xFF, 0) := by decide

/-- A26, A27. -/
theorem test_subnReg : look 0x8127 (start [(1, 0x10), (2, 0x20)] 0) (fun t => (t.reg 1, t.reg 15)) =
      some (0x10, 1) ∧
    look 0x8127 (start [(1, 0x20), (2, 0x10), (15, 1)] 0) (fun t => (t.reg 1, t.reg 15)) = some (0xF0, 0) := by
  decide

/-- A30, A33. -/
theorem test_shr : look 0x8126 (start [(1, 0xAA), (2, 0x05)] 0) (fun t => (t.reg 1, t.reg 2, t.reg 15)) =
      some (0x02, 0x05, 1) ∧
    look 0x81F6 (start [(15, 0x03)] 0) (fun t => (t.reg 1, t.reg 15)) = some (0x01, 1) := by decide

/-- A34. -/
theorem test_shr_vf : look 0x8F36 (start [(3, 0x05), (15, 0x09)] 0) (·.reg 15) = some 0x00 := by decide

/-- A35, A40. -/
theorem test_shl : look 0x812E (start [(2, 0x81)] 0) (fun t => (t.reg 1, t.reg 15)) = some (0x02, 1) ∧
    look 0x81FE (start [(15, 0x80), (1, 0x55)] 0) (fun t => (t.reg 1, t.reg 15)) = some (0x00, 1) := by decide

/-- A38, A39. -/
theorem test_shl_vf : look 0x8F3E (start [(3, 0x81)] 0) (·.reg 15) = some 0x02 ∧
    look 0x8F3E (start [(3, 0x7F), (15, 0x09)] 0) (·.reg 15) = some 0x00 := by decide

/-- A41 to A43, for every random byte: the byte masked, whatever it is. -/
theorem test_rnd : look 0xC30F State.reset (·.reg 3) = some (Config.rnd 0 &&& 0x0F) := by rfl

/-! ### One step, index register and memory -/

/-- M2. -/
theorem test_ldI : look 0xAFFF (start [] 0xF123) (·.I) = some 0x0FFF := by decide

/-- M3, M4. -/
theorem test_addI : look 0xF31E (start [(3, 0x05)] 0x0FFE) (fun t => (t.I, t.reg 15)) = some (0x1003, 0) ∧
    look 0xF31E (start [(3, 0x01)] 0xFFFF) (fun t => (t.I, t.reg 15)) = some (0x0000, 0) := by decide

/-- M6, M8. -/
theorem test_ldF : look 0xF029 (start [(0, 0x0A)] 0) (·.I) = some 0x0032 ∧
    look 0xF029 (start [(0, 0xFF)] 0) (·.I) = some 0x04FB := by decide

/-- M9. -/
theorem test_ldB : look 0xF233 (start [(2, 0x9D)] 0x300)
    (fun t => (t.readByte 0x300, t.readByte 0x301, t.readByte 0x302, t.I)) = some (1, 5, 7, 0x300) := by decide

/-- M15. -/
theorem test_ldB_beyond : look 0xF233 (start [(2, 0x7B)] 0x0FFE)
    (fun t => (t.pc, t.readByte 0xFFE, t.faultOut)) = some (0x200, 0, some (4, 0xF233, 0x200)) := by decide

/-- M16. -/
theorem test_ldMemVx : look 0xF255 (start [(0, 0x11), (1, 0x22), (2, 0x33), (3, 0x44)] 0x400)
    (fun t => (t.readByte 0x400, t.readByte 0x401, t.readByte 0x402, t.readByte 0x403, t.I)) =
    some (0x11, 0x22, 0x33, 0x00, 0x400) := by decide

/-- M19. -/
theorem test_ldMemVx_beyond : look 0xFF55 (start [(0, 0xA0), (15, 0xAF)] 0x0FF1)
    (fun t => (t.pc, t.readByte 0xFF1, t.faultOut)) = some (0x200, 0, some (4, 0xFF55, 0x200)) := by decide

/-- M20: the default font. -/
theorem test_ldVxMem_font : look 0xF165 State.reset (fun t => (t.reg 0, t.reg 1)) = some (0xF0, 0x90) := by decide

/-- M21. -/
theorem test_ldVxMem : look 0xF265 (startMem [(3, 0x99)] [1, 5, 7, 9])
    (fun t => (t.reg 0, t.reg 1, t.reg 2, t.reg 3)) = some (1, 5, 7, 0x99) := by decide

/-! ### One step, display -/

/-- S1. -/
theorem test_cls : look 0x00E0 ((start [(15, 1)] 0).setDisp [0, 63, 64, 2047]) (fun t => (t.disp, t.reg 15)) =
    some ([], 1) := by decide

/-- S2: the source's own example E5. -/
theorem test_drw_clips : look 0xD121 (startMem [(1, 0x3C), (15, 1)] [0xFF]) (fun t => (t.disp, t.reg 15)) =
    some ([60, 61, 62, 63], 0) := by decide

/-- S7. -/
theorem test_drw_collides : look 0xD121 ((startMem [] [0xC0]).setDisp [1]) (fun t => (t.disp, t.reg 15)) =
    some ([0], 1) := by decide

/-! ### One step, keys and timers -/

/-- K1, K2. -/
theorem test_skp : look 0xE39E ((start [(3, 0x0A)] 0).setKey 10 true) (·.pc) = some 0x204 ∧
    look 0xE39E ((start [(3, 0x0A)] 0).setKey 11 true) (·.pc) = some 0x202 := by decide

/-- K5. -/
theorem test_skp_index : look 0xE39E ((start [(3, 0x10)] 0).setKey 0 true) (fun t => (t.pc, t.faultOut)) =
    some (0x200, some (5, 0xE39E, 0x200)) := by decide

/-- K3, K4. -/
theorem test_sknp : look 0xE3A1 (start [(3, 0x0A)] 0) (·.pc) = some 0x204 ∧
    look 0xE3A1 ((start [(3, 0x0A)] 0).setKey 10 true) (·.pc) = some 0x202 := by decide

/-- K6. -/
theorem test_sknp_index : look 0xE3A1 (start [(3, 0xFF)] 0) (·.faultOut) =
    some (some (5, 0xE3A1, 0x200)) := by decide

/-- K7. -/
theorem test_ldVxDt : look 0xF107 (State.reset.setDT 0x2A) (fun t => (t.reg 1, t.DT)) = some (0x2A, 0x2A) := by
  decide

/-- K8. -/
theorem test_ldVxK_waits : look 0xF50A ((start [(5, 0xEE)] 0).setPc 0x20A) (fun t => (t.pc, t.reg 5)) =
    some (0x20A, 0xEE) := by decide

/-- K10. -/
theorem test_ldVxK_lowest : look 0xF50A ((((start [(5, 0xEE)] 0).setKey 7 true).setKey 3 true).setPc 0x20A)
    (fun t => (t.pc, t.reg 5)) = some (0x20C, 0x03) := by decide

/-- `LD DT, Vx`, the example of R144. -/
theorem test_ldDtVx : look 0xF015 (start [(0, 0x3C)] 0) (·.DT) = some 0x3C := by decide

/-- `LD ST, Vx`, the example of R145: no edge by the instruction itself. -/
theorem test_ldStVx : look 0xF218 (start [(2, 0x05)] 0) (fun t => (t.ST, t.signal, t.soundPlaying)) =
    some (0x05, none, false) := by decide

/-! ### One step of the timer engine or the host, vectors of section 5 -/

/-- One step of the scheduled event `e`. -/
def afterEvent (e : Event) (s : State) {α : Type} (f : State → α) : Option α :=
  match step { s with schedule := [e] } with
  | .next t => some (f t)
  | .fault _ => none
  | .refused _ => none

/-- X1, its first and its last tick. -/
theorem test_tick_delay : afterEvent .timerTick (State.reset.setDT 2) (·.DT) = some 1 ∧
    afterEvent .timerTick State.reset (·.DT) = some 0 := by decide

/-- X2, its first tick. -/
theorem test_tick_start : afterEvent .timerTick (State.reset.setST 3)
    (fun t => (t.ST, t.signal, t.soundPlaying)) = some (2, some .soundStart, true) := by decide

/-- X2, its third tick, and X5. -/
theorem test_tick_stop :
    afterEvent .timerTick { State.reset.setST 1 with soundPlaying := true }
      (fun t => (t.ST, t.signal, t.soundPlaying)) = some (0, some .soundStop, false) ∧
    afterEvent .timerTick { State.reset with soundPlaying := true }
      (fun t => (t.ST, t.signal, t.soundPlaying)) = some (0, some .soundStop, false) := by decide

/-- X3, X4: no edge. -/
theorem test_tick_no_edge :
    afterEvent .timerTick (State.reset.setST 1) (fun t => (t.ST, t.signal, t.soundPlaying)) =
      some (0, none, false) ∧
    afterEvent .timerTick { State.reset.setST 5 with soundPlaying := true }
      (fun t => (t.ST, t.signal, t.soundPlaying)) = some (4, none, true) := by decide

/-- X7: a halted machine does not tick. -/
theorem test_tick_halted :
    afterEvent .timerTick ((State.reset.setDT 9).faulted .unknownOpcode 0) (fun t => (t.DT, t.faultOut)) =
      some (9, some (1, 0x0000, 0x200)) := by decide

/-- X10. -/
theorem test_keyDown : afterEvent (.keyDown 3) State.reset (fun t => (t.keyHeld 3, t.keyHeld 2)) =
    some (true, false) := by decide

/-- X10. -/
theorem test_keyUp : afterEvent (.keyUp 3) ((State.reset.setKey 3 true).setKey 4 true)
    (fun t => (t.keyHeld 3, t.keyHeld 4)) = some (false, true) := by decide

/-- X13, on the image of vector T5: memory high byte first from 0x200, no stop edge. -/
theorem test_reset_image : afterEvent (.reset [0x12, 0x34]) { State.reset.setST 4 with soundPlaying := true }
    (fun t => (t.fetchWord, t.readByte 0x000, t.soundPlaying, t.signal)) =
    some (0x1234, 0xF0, false, none) := by decide

/-- X9: a restore of a state read before the fault ends the halt. -/
theorem test_restore : afterEvent (.stateRestore MachineState.reset)
    ((State.reset.setReg 1 7).faulted .unknownOpcode 0) (fun t => (t.fault, t.reg 1)) = some (none, 0) := by
  decide

/-- X8: a restore that turns the sound on drives no edge. -/
theorem test_restore_no_edge : afterEvent (.stateRestore { MachineState.reset with soundPlaying := true, ST := 4 })
    State.reset (fun t => (t.soundPlaying, t.ST, t.signal)) = some (true, 4, none) := by decide

/-- F1, F12 as a scheduled instruction step, with nothing placed. -/
theorem test_fetch_faults_scheduled :
    afterEvent .instrTick State.reset (fun t => (t.faultOut, t.schedule)) = some (some (1, 0x0000, 0x200), []) ∧
    afterEvent .instrTick (State.reset.setPc 0xFFF) (fun t => (t.faultOut, t.schedule)) =
      some (some (3, 0x0000, 0xFFF), []) := by decide

/-- F1, F12: the faults of the fetch, with nothing placed; the first is also X14. -/
theorem test_fetch_faults :
    (match step State.reset with | .next t => t.faultOut | _ => none) = some (1, 0x0000, 0x200) ∧
    (match step (State.reset.setPc 0xFFF) with | .next t => t.faultOut | _ => none) =
      some (3, 0x0000, 0xFFF) := by decide

/-! ### Witnesses: each statement's hypotheses are met, at the boundary values of its clauses -/

/-- A halted state. -/
def stopped : State := State.reset.faulted .unknownOpcode 0

/-- The word `w` placed at `pc` in the state `s`. -/
abbrev placed (w : Nat) (s : State) : State := s.withFetchWord 16 w

theorem witness_DecodeThenEncodeGivesTheWord : decode 0xD125 = .instr (.drw 1 2 5) := by decide

theorem witness_WordDecodesByItsOpcodeRow : (⟨18, 0x800E, 0xF00F⟩ : OpcodeRow) ∈ opcodeRows ∧
    (0x8ABE : Word) &&& 0xF00F = 0x800E := by decide

theorem witness_UnmatchedWordIsUnknown : ∀ r ∈ opcodeRows, (0x0123 : Word) &&& r.mask ≠ r.pattern := by decide

/-- Both clauses, at the highest address that can be fetched from. -/
theorem witness_StepRunsTheDecodedInstruction :
    let s := placed 0x1234 (State.reset.setPc 4094)
    s.fault = none ∧ s.pc.toNat ≤ 4094 ∧
      decode (s.readByte s.pc.toNat ++ s.readByte (s.pc.toNat + 1)) = .instr (.jp 0x234) ∧ s.schedule = [] ∧
      ({ s with schedule := [.instrTick] } : State).schedule = .instrTick :: [] := by decide

/-- The range clause at 4095, with nothing scheduled and with the instruction step scheduled. -/
theorem witness_FetchFaultsRecordTheirCause_range :
    let s := State.reset.setPc 4095
    let u := { s with schedule := [.instrTick] }
    (s.fault = none ∧ s.pc.toNat > 4094 ∧ s.schedule = []) ∧
      u.fault = none ∧ u.pc.toNat > 4094 ∧ u.schedule = .instrTick :: [] := by decide

/-- The clause on an unknown word at 4094, with nothing scheduled and with the instruction step scheduled. -/
theorem witness_FetchFaultsRecordTheirCause_unknown :
    let s := State.reset.setPc 4094
    let u := { s with schedule := [.instrTick] }
    (s.fault = none ∧ s.pc.toNat ≤ 4094 ∧
      s.readByte s.pc.toNat ++ s.readByte (s.pc.toNat + 1) = (0x0000 : Word) ∧
      decode 0x0000 = .unknown 0x0000 ∧ s.schedule = []) ∧
      u.fault = none ∧ u.pc.toNat ≤ 4094 ∧
      u.readByte u.pc.toNat ++ u.readByte (u.pc.toNat + 1) = (0x0000 : Word) ∧
      u.schedule = .instrTick :: [] := by decide

theorem witness_HaltedMachineTakesNoStep : stopped.fault ≠ none ∧ stopped.schedule = [] ∧
    ({ stopped with schedule := [.instrTick] } : State).fault ≠ none ∧
    ({ stopped with schedule := [.timerTick] } : State).fault ≠ none ∧
    ({ stopped with schedule := [.keyDown 15] } : State).fault ≠ none := by decide

theorem witness_RetPopsTheReturnAddress : State.reset.stack = [] ∧
    (State.reset.push 0x206).stack = [] ++ [0x206] := by decide

/-- A full stack, one entry short of full, and no limit. -/
theorem witness_CallPushesTheNextAddress :
    ({ State.reset with cfg := ⟨defaultFont, some 0⟩ } : State).cfg.stackLimit = some State.reset.stack.length ∧
    ({ State.reset with cfg := ⟨defaultFont, some 1⟩ } : State).cfg.stackLimit ≠ some State.reset.stack.length ∧
    State.reset.cfg.stackLimit ≠ some State.reset.stack.length := by decide

theorem witness_SkipsOnARegister : (1 : Nibble) ≠ 0 ∧ (15 : Nibble) ≠ 0 := by decide

/-- For `AddRegSetsTheCarry`, `SubtractionsSetNotBorrow`, `ShiftsMoveVyByOne`. -/
theorem witness_destination_not_the_flag : (14 : Nibble) ≠ VF ∧ (15 : Nibble) = VF := by decide

/-- The two clauses where they meet: `I + 2` is 4095, and 4096. -/
theorem witness_LdBStoresTheDecimalDigits : (start [] 0x0FFD).ea 2 ≤ 4095 ∧ (start [] 0x0FFE).ea 2 > 4095 := by
  decide

/-- The two clauses where they meet, for `StoreRegistersWritesV0ToVx` and `LoadRegistersReadsV0ToVx`. -/
theorem witness_block_clauses : (start [] 0x0FF0).ea (15 : Nibble).toNat ≤ 4095 ∧
    (start [] 0x0FF1).ea (15 : Nibble).toNat > 4095 ∧ (start [] 0x0FFF).ea (0 : Nibble).toNat ≤ 4095 ∧
    (start [] 0x1000).ea (0 : Nibble).toNat > 4095 := by decide

theorem witness_BlockLoadUndoesBlockStore :
    (start [(0, 0x11)] 0x0FFE).ea (1 : Nibble).toNat ≤ 4095 ∧
    ∃ t, exec (.ldMemVx 1) (start [(0, 0x11)] 0x0FFE) = .next t := ⟨by decide, _, rfl⟩

/-- The fourth step of program P8 of 95_test_vectors.md. -/
theorem witness_StoredWordIsFetchedNext :
    let s := placed 0xF155 ((start [(0, 0x12), (1, 0x0A)] 0x208).setPc 0x206)
    s.fault = none ∧ s.schedule = [] ∧ s.pc.toNat ≤ 4092 ∧ decode s.fetchWord = .instr (.ldMemVx 1) ∧
      (1 : Nibble).toNat ≥ 1 ∧ s.I = s.pc + 2 ∧ s.ea (1 : Nibble).toNat ≤ 4095 ∧
      decode (s.reg 0 ++ s.reg 1) = .instr (.jp 0x20A) := by decide

/-- The two clauses of the range where they meet, and `n = 0` above the end of memory. -/
theorem witness_DrwXorsTheSprite :
    ((2 : Nibble).toNat > 0 ∧ (start [] 0x0FFF).ea ((2 : Nibble).toNat - 1) > 4095) ∧
    ((2 : Nibble).toNat = 0 ∨ (start [] 0x0FFE).ea ((2 : Nibble).toNat - 1) ≤ 4095) ∧
    ((0 : Nibble).toNat = 0 ∨ (start [] 0xFFFF).ea ((0 : Nibble).toNat - 1) ≤ 4095) := by decide

/-- A sprite bit on a lit cell: the collision clause of `DrwXorsTheSprite`. -/
theorem witness_DrwXorsTheSprite_collision :
    let s := (startMem [] [0x80]).setDisp [0]
    s.spriteOn 0 0 1 0 ∧ s.cell 0 = 0xFF := ⟨⟨0, 0, by decide⟩, by decide⟩

/-- A sprite on a clear display: the other clause of the flag. -/
theorem witness_DrwXorsTheSprite_no_collision :
    ∀ j, (startMem [] [0x80]).spriteOn 0 0 1 j → (startMem [] [0x80]).cell j = 0x00 := by
  intro j _
  simp [State.cell, State.isLit, startMem, start, State.writeBytes, State.setI, State.reset, MachineState.reset]

theorem witness_DrawingTwiceRestoresTheDisplay : (1 : Nibble) ≠ VF ∧ (2 : Nibble) ≠ VF ∧
    ((15 : Nibble).toNat = 0 ∨ (start [] 0x0FF1).ea ((15 : Nibble).toNat - 1) ≤ 4095) := by decide

/-- The two clauses where they meet: 15, and 16. -/
theorem witness_KeySkipsTestOneFlag : ((start [(3, 15)] 0).reg 3).toNat = (15 : Nibble).toNat ∧
    ((start [(3, 16)] 0).reg 3).toNat > 15 := by decide

/-- The lowest key, the highest key alone, and no key. -/
theorem witness_KeyWaitTakesTheLowestKey :
    ((State.reset.setKey 0 true).keyHeld 0 = true ∧
      ∀ m : Nibble, m.toNat < (0 : Nibble).toNat → (State.reset.setKey 0 true).keyHeld m = false) ∧
    ((State.reset.setKey 15 true).keyHeld 15 = true ∧
      ∀ m : Nibble, m.toNat < (15 : Nibble).toNat → (State.reset.setKey 15 true).keyHeld m = false) ∧
    (∀ k, State.reset.keyHeld k = false) := by decide

theorem witness_KeyWaitRepeatsUntilAKey :
    let s := placed 0xF50A (State.reset.setPc 4094)
    s.fault = none ∧ s.schedule = [] ∧ s.signal = none ∧ s.pc.toNat ≤ 4094 ∧
      decode s.fetchWord = .instr (.ldVxK 5) ∧ ∀ m, s.keyHeld m = false := by decide

/-- Both clauses: a `RET` that faults and one that does not. -/
theorem witness_PcAfterEveryInstruction :
    (State.reset.fault = none ∧ State.reset.pc.toNat ≤ 4094 ∧
      ∃ t, exec .ret State.reset = .next t ∧ t.fault ≠ none) ∧
    ((State.reset.push 0x206).fault = none ∧
      ∃ t, exec .ret (State.reset.push 0x206) = .next t ∧ t.fault = none) :=
  ⟨⟨rfl, by decide, _, rfl, by decide⟩, rfl, _, rfl, rfl⟩

/-- For `EachPieceHasOnlyItsWriters`, `OnlyDestinationRegistersChange`, `FaultsArePreciseAndListed`. -/
theorem witness_an_instruction_answers : State.reset.fault = none ∧ VF ∉ instrDestRegs (.ldImm 1 7) ∧
    ∃ t, exec (.ldImm 1 7) State.reset = .next t := ⟨rfl, by decide, _, rfl⟩

theorem witness_KeysMatterOnlyToKeyInstructions : instrReadsKeys (.ldImm 1 7) = false ∧
    ∃ t, exec (.ldImm 1 7) State.reset = .next t := ⟨rfl, _, rfl⟩

/-- The four clauses on the edges, at 2 and at 1. -/
theorem witness_TimerTickCountsDownAndDrivesEdges :
    let s := { State.reset with schedule := [.timerTick] }
    (s.fault = none ∧ s.schedule = .timerTick :: []) ∧
    ((s.setST 2).ST.toNat ≥ 2 ∧ (s.setST 2).soundPlaying = false) ∧
    ((s.setST 1).ST.toNat ≤ 1 ∧ ({ s.setST 1 with soundPlaying := true } : State).soundPlaying = true) ∧
    ({ s.setST 2 with soundPlaying := true } : State).soundPlaying = true ∧
    (s.setST 1).soundPlaying = false := by decide

theorem witness_SoundEdgesAlternate :
    ∀ e ∈ ({ State.reset.setST 2 with schedule := [.timerTick, .instrTick, .keyDown 1, .timerTick] } : State).schedule,
      e.ordinary = true := by decide

theorem witness_KeyEventsSetOneFlag :
    ({ State.reset with schedule := [.keyDown 15] } : State).schedule = .keyDown 15 :: [] ∧
    ({ State.reset with schedule := [.keyUp 0] } : State).schedule = .keyUp 0 :: [] ∧ (1 : Nibble) ≠ 0 := by
  decide

theorem witness_HostReadsChangeNothing :
    ({ State.reset with schedule := [.displayRead] } : State).schedule = .displayRead :: [] ∧
    ({ State.reset with schedule := [.stateRead] } : State).schedule = .stateRead :: [] := by decide

/-- The longest image, and the empty one. -/
theorem witness_ResetLoadsTheImage :
    ({ stopped with schedule := [.reset (List.replicate 3584 0xAA)] } : State).schedule =
      .reset (List.replicate 3584 0xAA) :: [] ∧
    (List.replicate 3584 (0xAA : Byte)).length ≤ 3584 ∧ ([] : List Byte).length ≤ 3584 := by
  refine ⟨rfl, ?_, by decide⟩
  simp only [List.length_replicate]; decide

/-- One byte more. -/
theorem witness_OversizedImageIsRefused :
    ({ State.reset with schedule := [.reset (List.replicate 3585 0xAA)] } : State).schedule =
      .reset (List.replicate 3585 0xAA) :: [] ∧ (List.replicate 3585 (0xAA : Byte)).length > 3584 := by
  refine ⟨rfl, ?_⟩
  simp only [List.length_replicate]; decide

/-- A state with a byte stored, a cell lit and a restore scheduled meets the invariant, and it steps. -/
theorem witness_EveryStepKeepsTheInvariant :
    let s := { (startMem [] [0x80]).setDisp [0] with schedule := [.stateRestore MachineState.reset] }
    s.Inv ∧ ∃ t, step s = .next t := by
  refine ⟨⟨by decide, ?_⟩, _, rfl⟩
  intro e he
  simp only [List.mem_singleton] at he
  subst he
  exact ⟨by decide, by decide⟩

theorem witness_EveryStepKeepsTheParameters : ∃ t, step (placed 0xC30F State.reset) = .next t := ⟨_, rfl⟩

theorem witness_EndedRunStaysAtItsJump : (placed 0x1200 State.reset).endedWell ∧
    (placed 0x1200 State.reset).schedule = [] := ⟨⟨rfl, by decide, by decide⟩, rfl⟩

end Sys2Proof.Tests
end

section
/-!
The program counter after an instruction (10_state.md R13): the targets and increments as natural numbers, the key a
key instruction finds, and then the rule of the whole table.
-/

namespace Sys2Proof.Machine

/-! ### Values given to `pc` -/

/-- The increment at fetch does not wrap where the fetch is in range (10_state.md R14). -/
theorem toNat_add_two {pc : Word} (hpc : pc.toNat ≤ 4094) : (pc + 2).toNat = pc.toNat + 2 := by
  bv_omega

theorem absTarget_toNat (nnn : Addr12) : (absTarget nnn).toNat = nnn.toNat :=
  BitVec.toNat_setWidth_of_le (by decide)

theorem State.offsetTarget_toNat (s : State) (nnn : Addr12) :
    (s.offsetTarget nnn).toNat = nnn.toNat + (s.reg 0).toNat := by
  unfold State.offsetTarget
  bv_omega

/-- Fetch and skip together (40_control_transfer.md R89). -/
theorem State.advance_skipIf_pc_toNat {s : State} (hpc : s.pc.toNat ≤ 4094) (c : Bool) :
    (s.advance.skipIf c).pc.toNat = s.pc.toNat + if c then 4 else 2 := by
  cases c with
  | false => exact toNat_add_two hpc
  | true =>
    have hskip : (s.advance.skipIf true).pc = s.pc + 2 + 2 := State.skipIf_pc ..
    rw [hskip, if_pos rfl]
    bv_omega

/-! ### Block loads and keys -/

@[simp] theorem State.loadRegs_pc (s : State) (a k : Nat) : (s.loadRegs a k).pc = s.pc := by
  rw [State.loadRegs_eq]

@[simp] theorem State.loadRegs_fault (s : State) (a k : Nat) : (s.loadRegs a k).fault = s.fault := by
  rw [State.loadRegs_eq]

/-- A key index is the register's value, not reduced (44_keys_timers.md R140). -/
theorem State.toNat_of_keyIndex_eq_some {s : State} {x k : Nibble} (h : s.keyIndex x = some k) :
    k.toNat = (s.reg x).toNat := by
  unfold State.keyIndex at h
  split at h
  case isTrue => cases h
  case isFalse hle =>
    cases h
    rw [BitVec.toNat_setWidth]
    exact Nat.mod_eq_of_lt (by omega)

theorem State.keyHeld_of_lowestKey_eq_some {s : State} {k : Nat} (h : s.lowestKey = some k) :
    s.keyHeld (BitVec.ofNat 4 k) = true :=
  List.find?_some (p := fun k => s.keyHeld (BitVec.ofNat 4 k)) h

theorem State.lowestKey_eq_none_iff {s : State} : s.lowestKey = none ↔ ∀ k, s.keyHeld k = false := by
  simp only [State.lowestKey, List.find?_eq_none, List.mem_range, Bool.not_eq_true]
  constructor
  · intro h k
    simpa using h k.toNat k.isLt
  · exact fun h k _ => h _

/-! ### The table of R13 -/

/-- The outcome `o` of a step of `i` from `s` is a next state: either only a fault is recorded, or none is and `pc` is
as the table says. -/
def EndsByPcRule (i : Instr) (s : State) (o : Out) : Prop :=
  ∃ t, o = .next t ∧ ((∃ c w, t = s.faulted c w) ∨ (t.fault = s.fault ∧ pcRule i s t))

namespace EndsByPcRule

variable {i : Instr} {s t : State}

theorem raise (c : Cause) (w : Word) : EndsByPcRule i s (s.raise c w) :=
  ⟨_, rfl, .inl ⟨c, w, rfl⟩⟩

theorem next (hf : t.fault = s.fault) (hr : pcRule i s t) : EndsByPcRule i s (.next t) :=
  ⟨t, rfl, .inr ⟨hf, hr⟩⟩

/-- The shape of every instruction that checks one condition before it acts. -/
theorem ite_raise {p : Prop} [Decidable p] {c : Cause} {w : Word} (hf : t.fault = s.fault) (hr : pcRule i s t) :
    EndsByPcRule i s (if p then s.raise c w else .next t) := by
  split
  · exact raise c w
  · exact next hf hr

end EndsByPcRule

section

variable {s : State}

theorem execRet_endsByPcRule : EndsByPcRule .ret s (execRet s) := by
  unfold execRet
  split
  case h_1 => exact .raise _ _
  case h_2 v hv =>
    have htop : s.stack = s.stack.dropLast ++ [v] := (List.dropLast_append_getLast? v hv).symm
    exact .next rfl htop

theorem execCall_endsByPcRule (hpc : s.pc.toNat ≤ 4094) (nnn : Addr12) :
    EndsByPcRule (.call nnn) s (execCall nnn s) :=
  .ite_raise rfl ⟨absTarget_toNat nnn, _, toNat_add_two hpc, rfl⟩

theorem execSkp_endsByPcRule (hpc : s.pc.toNat ≤ 4094) (x : Nibble) :
    EndsByPcRule (.skp x) s (execSkp x s) := by
  unfold execSkp
  split
  case h_1 => exact .raise _ _
  case h_2 k hk =>
    exact .next (State.skipIf_fault ..) ⟨k, State.toNat_of_keyIndex_eq_some hk, State.advance_skipIf_pc_toNat hpc _⟩

theorem execSknp_endsByPcRule (hpc : s.pc.toNat ≤ 4094) (x : Nibble) :
    EndsByPcRule (.sknp x) s (execSknp x s) := by
  unfold execSknp
  split
  case h_1 => exact .raise _ _
  case h_2 k hk =>
    refine .next (State.skipIf_fault ..) ⟨k, State.toNat_of_keyIndex_eq_some hk, ?_⟩
    rw [State.advance_skipIf_pc_toNat hpc]
    cases s.keyHeld k <;> rfl

theorem execLdVxK_endsByPcRule (hpc : s.pc.toNat ≤ 4094) (x : Nibble) :
    EndsByPcRule (.ldVxK x) s (execLdVxK x s) := by
  unfold execLdVxK
  split
  case h_1 k hk =>
    have hheld := State.keyHeld_of_lowestKey_eq_some hk
    exact .next rfl ⟨fun _ => toNat_add_two hpc, fun hnone => absurd hheld (by simp [hnone])⟩
  case h_2 hk =>
    have hnone := State.lowestKey_eq_none_iff.1 hk
    exact .next rfl ⟨fun ⟨k, hheld⟩ => absurd hheld (by simp [hnone]), fun _ => BitVec.add_sub_cancel s.pc 2⟩

/-- The whole table, one arm per row; the faults recorded before the step do not matter to it. -/
theorem exec_endsByPcRule (i : Instr) (hpc : s.pc.toNat ≤ 4094) : EndsByPcRule i s (exec i s) := by
  cases i
  case ret => exact execRet_endsByPcRule
  case jp nnn => exact .next rfl (absTarget_toNat nnn)
  case jpV0 nnn => exact .next rfl (s.offsetTarget_toNat nnn)
  case call nnn => exact execCall_endsByPcRule hpc nnn
  case seImm | sneImm | seReg | sneReg =>
    exact .next (State.skipIf_fault ..) ((State.advance_skipIf_pc_toNat hpc _).trans (by simp))
  case skp x => exact execSkp_endsByPcRule hpc x
  case sknp x => exact execSknp_endsByPcRule hpc x
  case ldVxK x => exact execLdVxK_endsByPcRule hpc x
  case drw | ldB | ldMemVx => exact .ite_raise rfl (toNat_add_two hpc)
  case ldVxMem x =>
    exact .ite_raise (State.loadRegs_fault ..) ((congrArg _ (State.loadRegs_pc ..)).trans (toNat_add_two hpc))
  -- The instructions the table does not list: `a + 2`.
  case cls | ldImm | addImm | ldReg | orReg | andReg | xorReg | addReg | subReg | shr | subnReg | shl | rnd
    | ldVxDt | ldDtVx | ldStVx | ldI | addI | ldF =>
    exact .next rfl (toNat_add_two hpc)

end

/-- Settles O38: of the two ways a step ends by the table, a recorded fault leaves the first, and none the second. -/
theorem pcAfterEveryInstruction : Obligations.PcAfterEveryInstruction := by
  intro i s t hs hpc hexec
  obtain ⟨_, hnext, hend⟩ := exec_endsByPcRule i hpc
  cases hexec.symm.trans hnext
  rcases hend with ⟨c, w, rfl⟩ | ⟨hkept, hrule⟩
  · exact ⟨fun _ => rfl, fun hnone => absurd hnone (Option.some_ne_none _)⟩
  · exact ⟨fun hfault => absurd (hkept.trans hs) hfault, fun _ => hrule⟩

end Sys2Proof.Machine
end

section
/-!
Control transfer (40_control_transfer.md): what the words of families 1, 3, 4, 5 and 9 decode to, and a jump and the
skips as one value given to `pc`.
-/

namespace Sys2Proof

/-! ### The words of control transfer (30_encoding.md R64) -/

theorem decode_jp (nnn : Addr12) : decode ((0x1 : Nibble) ++ nnn) = .instr (.jp nnn) := by
  obtain ⟨hop, hnnn⟩ := fields_nnn 0x1 nnn
  rw [decode, hop, hnnn]
  rfl

theorem decode_seImm (x : Nibble) (kk : Byte) :
    decode ((0x3 : Nibble) ++ x ++ kk) = .instr (.seImm x kk) := by
  obtain ⟨hop, hx, hkk⟩ := fields_xkk 0x3 x kk
  rw [decode, hop, hx, hkk]
  rfl

theorem decode_sneImm (x : Nibble) (kk : Byte) :
    decode ((0x4 : Nibble) ++ x ++ kk) = .instr (.sneImm x kk) := by
  obtain ⟨hop, hx, hkk⟩ := fields_xkk 0x4 x kk
  rw [decode, hop, hx, hkk]
  rfl

/-- Family 5 is keyed on the low digit (R63). -/
theorem decode_family5 (x y n : Nibble) :
    decode ((0x5 : Nibble) ++ x ++ y ++ n) =
      if n = 0 then .instr (.seReg x y) else .unknown ((0x5 : Nibble) ++ x ++ y ++ n) := by
  obtain ⟨hop, hx, hy, hn⟩ := fields_xyn 0x5 x y n
  rw [decode, hop, hx, hy, hn]
  rfl

/-- Family 9 is keyed on the low digit (R63). -/
theorem decode_family9 (x y n : Nibble) :
    decode ((0x9 : Nibble) ++ x ++ y ++ n) =
      if n = 0 then .instr (.sneReg x y) else .unknown ((0x9 : Nibble) ++ x ++ y ++ n) := by
  obtain ⟨hop, hx, hy, hn⟩ := fields_xyn 0x9 x y n
  rw [decode, hop, hx, hy, hn]
  rfl

end Sys2Proof

namespace Sys2Proof.Machine

variable {s : State}

/-! ### Instructions that write `pc` alone -/

theorem frameBut_setPc (a : Word) : FrameBut [.pc] s (s.setPc a) := by
  intro p hp
  cases p
  case pc => exact absurd (List.mem_singleton_self _) hp
  case regs | keys | display | memory => exact fun _ => rfl
  case index | stack | delay | sound | playing | fault | draws | config | schedule | signal => rfl

/-- The shape of every instruction that answers the state with a new `pc` and nothing else new. -/
theorem exists_next_of_eq_setPc {o : Out} {a : Word} (h : o = .next (s.setPc a)) :
    ∃ t, o = .next t ∧ t.pc = a ∧ FrameBut [.pc] s t :=
  ⟨s.setPc a, h, rfl, frameBut_setPc a⟩

/-- The increment at fetch and a skip are one increment, of 2 or 4 (R89). -/
theorem State.advance_skipIf (c : Bool) :
    s.advance.skipIf c = s.setPc (if c then s.pc + 4 else s.pc + 2) := by
  cases c with
  | false => rfl
  | true => exact congrArg s.setPc (BitVec.add_assoc s.pc 2 2)

theorem State.advance_skipIf_beq (u v : Byte) :
    s.advance.skipIf (u == v) = s.setPc (if u = v then s.pc + 4 else s.pc + 2) := by
  simp [State.advance_skipIf]

theorem State.advance_skipIf_bne (u v : Byte) :
    s.advance.skipIf (u != v) = s.setPc (if u = v then s.pc + 2 else s.pc + 4) := by
  simp [State.advance_skipIf]

theorem exec_jp (nnn : Addr12) : exec (.jp nnn) s = .next (s.setPc (absTarget nnn)) := rfl

theorem exec_seImm (x : Nibble) (kk : Byte) :
    exec (.seImm x kk) s = .next (s.setPc (if s.reg x = kk then s.pc + 4 else s.pc + 2)) :=
  congrArg _ (State.advance_skipIf_beq (s.reg x) kk)

theorem exec_sneImm (x : Nibble) (kk : Byte) :
    exec (.sneImm x kk) s = .next (s.setPc (if s.reg x = kk then s.pc + 2 else s.pc + 4)) :=
  congrArg _ (State.advance_skipIf_bne (s.reg x) kk)

theorem exec_seReg (x y : Nibble) :
    exec (.seReg x y) s = .next (s.setPc (if s.reg x = s.reg y then s.pc + 4 else s.pc + 2)) :=
  congrArg _ (State.advance_skipIf_beq (s.reg x) (s.reg y))

theorem exec_sneReg (x y : Nibble) :
    exec (.sneReg x y) s = .next (s.setPc (if s.reg x = s.reg y then s.pc + 2 else s.pc + 4)) :=
  congrArg _ (State.advance_skipIf_bne (s.reg x) (s.reg y))

/-! ### The statements -/

/-- Settles O12: the word 1nnn decodes to the jump, and the jump is one write of `pc`. -/
theorem jpLoadsItsTarget : Obligations.JpLoadsItsTarget := fun nnn _ =>
  ⟨decode_jp nnn, _, exec_jp nnn, absTarget_toNat nnn, frameBut_setPc _⟩

/-- Settles O15: both skips are one write of `pc`, chosen by the comparison with the immediate. -/
theorem skipsOnAnImmediate : Obligations.SkipsOnAnImmediate := fun x kk _ =>
  ⟨decode_seImm x kk, decode_sneImm x kk,
    exists_next_of_eq_setPc (exec_seImm x kk), exists_next_of_eq_setPc (exec_sneImm x kk)⟩

/-- Settles O16: as with an immediate, and the low digit of the word decides between the skip and `Unknown`. -/
theorem skipsOnARegister : Obligations.SkipsOnARegister := fun x y _ =>
  ⟨(decode_family5 x y 0).trans (if_pos rfl), (decode_family9 x y 0).trans (if_pos rfl),
    exists_next_of_eq_setPc (exec_seReg x y), exists_next_of_eq_setPc (exec_sneReg x y),
    fun n hn => ⟨(decode_family5 x y n).trans (if_neg hn), (decode_family9 x y n).trans (if_neg hn)⟩⟩

end Sys2Proof.Machine
end

section
/-!
Register loads, addition of an immediate, copies and logic (41_alu.md R100 to R105): the words of families 6, 7 and 8,
what a write of one register leaves unchanged, and the result of an instruction that writes no flag (R114).
-/

namespace Sys2Proof

/-! ### The words of families 6, 7 and 8 (30_encoding.md R64) -/

theorem decode_ldImm (x : Nibble) (kk : Byte) :
    decode ((0x6 : Nibble) ++ x ++ kk) = .instr (.ldImm x kk) := by
  obtain ⟨hop, hx, hkk⟩ := fields_xkk 0x6 x kk
  rw [decode, hop, hx, hkk]
  rfl

theorem decode_addImm (x : Nibble) (kk : Byte) :
    decode ((0x7 : Nibble) ++ x ++ kk) = .instr (.addImm x kk) := by
  obtain ⟨hop, hx, hkk⟩ := fields_xkk 0x7 x kk
  rw [decode, hop, hx, hkk]
  rfl

/-- Family 8 is keyed on the low digit (R63). -/
theorem decode_family8 (x y n : Nibble) :
    decode ((0x8 : Nibble) ++ x ++ y ++ n) =
      match n.toNat with
      | 0x0 => .instr (.ldReg x y)
      | 0x1 => .instr (.orReg x y)
      | 0x2 => .instr (.andReg x y)
      | 0x3 => .instr (.xorReg x y)
      | 0x4 => .instr (.addReg x y)
      | 0x5 => .instr (.subReg x y)
      | 0x6 => .instr (.shr x y)
      | 0x7 => .instr (.subnReg x y)
      | 0xE => .instr (.shl x y)
      | _ => .unknown ((0x8 : Nibble) ++ x ++ y ++ n) := by
  obtain ⟨hop, hx, hy, hn⟩ := fields_xyn 0x8 x y n
  rw [decode, hop, decode8, hx, hy, hn]
  rfl

end Sys2Proof

namespace Sys2Proof.Machine

variable {s t : State}

/-! ### What a write of one register leaves unchanged -/

theorem FrameBut.mono {ps qs : List Part} (h : FrameBut ps s t) (hsub : ps ⊆ qs) : FrameBut qs s t :=
  fun p hp => h p (fun hmem => hp (hsub hmem))

theorem FrameBut.setReg {ps : List Part} (h : FrameBut ps s t) (hregs : .regs ∈ ps) (x : Nibble) (v : Byte) :
    FrameBut ps s (t.setReg x v) := by
  intro p hp
  have hkept := h p hp
  cases p
  case regs => exact absurd hregs hp
  case pc | index | stack | delay | sound | keys | display | memory | playing | fault | draws | config | schedule
    | signal => exact hkept

theorem RegsBut.setReg {rs : List Nibble} {x : Nibble} (h : RegsBut rs s t) (hx : x ∈ rs) (v : Byte) :
    RegsBut rs s (t.setReg x v) := by
  intro r hr
  have hne : r ≠ x := fun heq => hr (heq ▸ hx)
  rw [State.reg_setReg, if_neg hne]
  exact h r hr

/-! ### A result and no flag (41_alu.md R114) -/

/-- The shape of every instruction that answers a result in `V[x]` and writes no flag: whatever holds of the result
holds of `V[x]` afterwards. -/
theorem exists_next_of_eq_result {o : Out} {x : Nibble} {v : Byte} (h : o = s.result x v) (P : Byte → Prop)
    (hv : P v) :
    ∃ t, o = .next t ∧ P (t.reg x) ∧ RegsBut [x] s t ∧ t.pc = s.pc + 2 ∧ FrameBut [.regs, .pc] s t := by
  have hreg : (s.advance.setReg x v).reg x = v := by rw [State.reg_setReg, if_pos rfl]
  have hregs : RegsBut [x] s s.advance := fun _ _ => rfl
  have hframe : FrameBut [.regs, .pc] s s.advance :=
    (frameBut_setPc (s.pc + 2)).mono (List.subset_cons_self Part.regs [Part.pc])
  exact ⟨s.advance.setReg x v, h, hreg.symm ▸ hv, hregs.setReg (List.mem_singleton_self x) v, rfl,
    hframe.setReg List.mem_cons_self x v⟩

theorem exec_ldImm (x : Nibble) (kk : Byte) : exec (.ldImm x kk) s = s.result x kk := rfl

theorem exec_addImm (x : Nibble) (kk : Byte) : exec (.addImm x kk) s = s.result x (s.reg x + kk) := rfl

theorem exec_ldReg (x y : Nibble) : exec (.ldReg x y) s = s.result x (s.reg y) := rfl

theorem exec_orReg (x y : Nibble) : exec (.orReg x y) s = s.result x (s.reg x ||| s.reg y) := rfl

theorem exec_andReg (x y : Nibble) : exec (.andReg x y) s = s.result x (s.reg x &&& s.reg y) := rfl

theorem exec_xorReg (x y : Nibble) : exec (.xorReg x y) s = s.result x (s.reg x ^^^ s.reg y) := rfl

/-! ### The statements -/

/-- Settles O17: the result is the immediate itself. -/
theorem ldImmLoadsTheByte : Obligations.LdImmLoadsTheByte := fun x kk _ =>
  ⟨decode_ldImm x kk, exists_next_of_eq_result (exec_ldImm x kk) (· = kk) rfl⟩

/-- Settles O18: the result is the sum of two bytes, which is modulo 256. -/
theorem addImmWrapsAndSetsNoFlag : Obligations.AddImmWrapsAndSetsNoFlag := fun x kk s =>
  ⟨decode_addImm x kk, exists_next_of_eq_result (exec_addImm x kk)
    (fun v => v.toNat = ((s.reg x).toNat + kk.toNat) % 256) (BitVec.toNat_add (s.reg x) kk)⟩

/-- Settles O19: the low digit of the word chooses the operation, and each operation on bytes is the one on bits. -/
theorem copyAndLogicWorkBitByBit : Obligations.CopyAndLogicWorkBitByBit := fun x y s =>
  ⟨⟨decode_family8 x y 0x0, decode_family8 x y 0x1, decode_family8 x y 0x2, decode_family8 x y 0x3⟩,
    exists_next_of_eq_result (exec_ldReg x y) (· = s.reg y) rfl,
    exists_next_of_eq_result (exec_orReg x y)
      (fun v => ∀ b < 8, v.getLsbD b = ((s.reg x).getLsbD b || (s.reg y).getLsbD b))
      (fun _ _ => BitVec.getLsbD_or),
    exists_next_of_eq_result (exec_andReg x y)
      (fun v => ∀ b < 8, v.getLsbD b = ((s.reg x).getLsbD b && (s.reg y).getLsbD b))
      (fun _ _ => BitVec.getLsbD_and),
    exists_next_of_eq_result (exec_xorReg x y)
      (fun v => ∀ b < 8, v.getLsbD b = ((s.reg x).getLsbD b ^^ (s.reg y).getLsbD b))
      (fun _ _ => BitVec.getLsbD_xor)⟩

end Sys2Proof.Machine
end

section
/-!
The index register (42_index_memory.md section 2): the words of family A, and what a write of `I` leaves unchanged.
-/

namespace Sys2Proof

/-- Family A (30_encoding.md R64). -/
theorem decode_ldI (nnn : Addr12) : decode ((0xA : Nibble) ++ nnn) = .instr (.ldI nnn) := by
  obtain ⟨hop, hnnn⟩ := fields_nnn 0xA nnn
  rw [decode, hop, hnnn]
  rfl

end Sys2Proof

namespace Sys2Proof.Machine

variable {s t : State}

theorem FrameBut.setI {ps : List Part} (h : FrameBut ps s t) (hindex : .index ∈ ps) (v : Word) :
    FrameBut ps s (t.setI v) := by
  intro p hp
  have hkept := h p hp
  cases p
  case index => exact absurd hindex hp
  case regs | pc | stack | delay | sound | keys | display | memory | playing | fault | draws | config | schedule
    | signal => exact hkept

/-- An instruction that writes `I` and goes on to the next word changes `I` and `pc` alone. -/
theorem frameBut_advance_setI (v : Word) : FrameBut [.index, .pc] s (s.advance.setI v) :=
  have hadvance : FrameBut [.index, .pc] s s.advance :=
    (frameBut_setPc (s.pc + 2)).mono (List.subset_cons_self Part.index [Part.pc])
  hadvance.setI List.mem_cons_self v

theorem exec_ldI (nnn : Addr12) : exec (.ldI nnn) s = .next (s.advance.setI (absTarget nnn)) := rfl

/-- Settles O24: the word Annn decodes to the load, and the load is one write of `I`, of the address zero-extended. -/
theorem ldILoadsTheAddress : Obligations.LdILoadsTheAddress := fun nnn _ =>
  ⟨decode_ldI nnn, _, exec_ldI nnn, absTarget_toNat nnn, rfl, frameBut_advance_setI (absTarget nnn)⟩

end Sys2Proof.Machine
end

section
/-!
Clearing the display (43_display.md R130): the word of `CLS`, the cells of a cleared display, and what the clearing
leaves unchanged.
-/

namespace Sys2Proof

/-- Family 0 is keyed on all twelve low bits (30_encoding.md R63). -/
theorem decode_cls : decode 0x00E0 = .instr .cls := rfl

end Sys2Proof

namespace Sys2Proof.Machine

variable {s t : State}

@[simp] theorem State.clearDisp_cell (j : Nat) : s.clearDisp.cell j = 0x00 := rfl

theorem FrameBut.clearDisp {ps : List Part} (h : FrameBut ps s t) (hdisplay : .display ∈ ps) :
    FrameBut ps s t.clearDisp := by
  intro p hp
  have hkept := h p hp
  cases p
  case display => exact absurd hdisplay hp
  case regs | pc | index | stack | delay | sound | keys | memory | playing | fault | draws | config | schedule
    | signal => exact hkept

/-- An instruction that clears the display and goes on to the next word changes the display and `pc` alone. -/
theorem frameBut_advance_clearDisp : FrameBut [.display, .pc] s s.advance.clearDisp :=
  have hadvance : FrameBut [.display, .pc] s s.advance :=
    (frameBut_setPc (s.pc + 2)).mono (List.subset_cons_self Part.display [Part.pc])
  hadvance.clearDisp List.mem_cons_self

theorem exec_cls : exec .cls s = .next s.advance.clearDisp := rfl

/-- Settles O31: the word decodes to the clearing, and every cell of a cleared display reads 0x00. -/
theorem clsClearsEveryCell : Obligations.ClsClearsEveryCell :=
  ⟨decode_cls, fun _ => ⟨_, exec_cls, fun j _ => State.clearDisp_cell j, rfl, frameBut_advance_clearDisp⟩⟩

end Sys2Proof.Machine
end

section
/-!
The key wait and the timer copies (44_keys_timers.md R142 to R145): the words of family F, what a write of a timer
leaves unchanged, and the key the wait takes.
-/

namespace Sys2Proof

/-- Family F is keyed on the whole low byte (30_encoding.md R63). -/
theorem decode_familyF (x : Nibble) (kk : Byte) :
    decode ((0xF : Nibble) ++ x ++ kk) =
      if kk = 0x07 then .instr (.ldVxDt x)
      else if kk = 0x0A then .instr (.ldVxK x)
      else if kk = 0x15 then .instr (.ldDtVx x)
      else if kk = 0x18 then .instr (.ldStVx x)
      else if kk = 0x1E then .instr (.addI x)
      else if kk = 0x29 then .instr (.ldF x)
      else if kk = 0x33 then .instr (.ldB x)
      else if kk = 0x55 then .instr (.ldMemVx x)
      else if kk = 0x65 then .instr (.ldVxMem x)
      else .unknown ((0xF : Nibble) ++ x ++ kk) := by
  obtain ⟨hop, hx, hkk⟩ := fields_xkk 0xF x kk
  rw [decode, hop, decodeF, hx, hkk]
  rfl

end Sys2Proof

namespace Sys2Proof.Machine

variable {s t : State}

/-! ### Writes of a timer -/

theorem FrameBut.setDT {ps : List Part} (h : FrameBut ps s t) (hdelay : .delay ∈ ps) (v : Byte) :
    FrameBut ps s (t.setDT v) := by
  intro p hp
  have hkept := h p hp
  cases p
  case delay => exact absurd hdelay hp
  case regs | pc | index | stack | sound | keys | display | memory | playing | fault | draws | config | schedule
    | signal => exact hkept

theorem FrameBut.setST {ps : List Part} (h : FrameBut ps s t) (hsound : .sound ∈ ps) (v : Byte) :
    FrameBut ps s (t.setST v) := by
  intro p hp
  have hkept := h p hp
  cases p
  case sound => exact absurd hsound hp
  case regs | pc | index | stack | delay | keys | display | memory | playing | fault | draws | config | schedule
    | signal => exact hkept

/-- The fetch's increment is within any frame that lets `pc` change, whichever piece `q` the instruction writes. -/
theorem frameBut_advance (q : Part) : FrameBut [q, .pc] s s.advance :=
  (frameBut_setPc (s.pc + 2)).mono (List.subset_cons_self q [Part.pc])

theorem frameBut_advance_setDT (v : Byte) : FrameBut [.delay, .pc] s (s.advance.setDT v) :=
  (frameBut_advance .delay).setDT List.mem_cons_self v

/-- The pulse port and `soundPlaying` are in this frame, so a write of `ST` drives no edge (R145). -/
theorem frameBut_advance_setST (v : Byte) : FrameBut [.sound, .pc] s (s.advance.setST v) :=
  (frameBut_advance .sound).setST List.mem_cons_self v

theorem exec_ldVxDt (x : Nibble) : exec (.ldVxDt x) s = s.result x s.DT := rfl

theorem exec_ldDtVx (x : Nibble) : exec (.ldDtVx x) s = .next (s.advance.setDT (s.reg x)) := rfl

theorem exec_ldStVx (x : Nibble) : exec (.ldStVx x) s = .next (s.advance.setST (s.reg x)) := rfl

/-! ### The key wait -/

/-- The search through the flags from 0 upwards ends at the first key that is down. -/
theorem State.lowestKey_eq_some_toNat {k : Nibble} (hheld : s.keyHeld k = true)
    (hlower : ∀ m : Nibble, m.toNat < k.toNat → s.keyHeld m = false) : s.lowestKey = some k.toNat := by
  refine List.find?_range_eq_some.2 ⟨by simpa using hheld, List.mem_range.2 k.isLt, fun j hj => ?_⟩
  have hj16 : (BitVec.ofNat 4 j).toNat = j := Nat.mod_eq_of_lt (hj.trans k.isLt)
  simp [hlower (BitVec.ofNat 4 j) (hj16.symm ▸ hj)]

theorem exec_ldVxK_of_lowestKey_eq_some {k : Nat} (hk : s.lowestKey = some k) (x : Nibble) :
    exec (.ldVxK x) s = s.result x (BitVec.ofNat 8 k) := by
  rw [exec, execLdVxK, hk]
  rfl

/-- The decrement undoes the increment at fetch. -/
theorem exec_ldVxK_of_lowestKey_eq_none (hk : s.lowestKey = none) (x : Nibble) :
    exec (.ldVxK x) s = .next s := by
  have hpc : s.pc + 2 - 2 = s.pc := BitVec.add_sub_cancel s.pc 2
  rw [exec, execLdVxK, hk]
  exact congrArg (fun a => Host.Outcome.next (s.setPc a)) hpc

/-! ### The statements -/

/-- Settles O35: a read of `DT` is a result of no flag, and each store is one write of its timer. -/
theorem timersAreCopied : Obligations.TimersAreCopied := fun x s =>
  ⟨⟨decode_familyF x 0x07, decode_familyF x 0x15, decode_familyF x 0x18⟩,
    exists_next_of_eq_result (exec_ldVxDt x) (· = s.DT) rfl,
    ⟨_, exec_ldDtVx x, rfl, rfl, frameBut_advance_setDT (s.reg x)⟩,
    ⟨_, exec_ldStVx x, rfl, rfl, frameBut_advance_setST (s.reg x)⟩⟩

/-- Settles O36: the lowest key down is the one the search finds, and with no key down the search finds none. -/
theorem keyWaitTakesTheLowestKey : Obligations.KeyWaitTakesTheLowestKey := by
  refine fun x s => ⟨decode_familyF x 0x0A, fun k hheld hlower => ?_, fun hnone => ?_⟩
  · have hk := State.lowestKey_eq_some_toNat hheld hlower
    have hbyte : (BitVec.ofNat 8 k.toNat).toNat = k.toNat := Nat.mod_eq_of_lt (by omega)
    exact exists_next_of_eq_result (exec_ldVxK_of_lowestKey_eq_some hk x) (·.toNat = k.toNat) hbyte
  · exact exec_ldVxK_of_lowestKey_eq_none (State.lowestKey_eq_none_iff.2 hnone) x

end Sys2Proof.Machine
end

section
/-!
The round trip of R67 and the opcode map (30_encoding.md R64, R65): every word is the word of what it decodes to, every
instruction's encoding decodes to it, and the words under a row of the map are the encodings of that row's instruction.
-/

namespace Sys2Proof

/-! ### The words the families before this section leave out (R64) -/

theorem decode_ret : decode 0x00EE = .instr .ret := rfl

theorem decode_call (nnn : Addr12) : decode ((0x2 : Nibble) ++ nnn) = .instr (.call nnn) := by
  obtain ⟨hop, hnnn⟩ := fields_nnn 0x2 nnn
  rw [decode, hop, hnnn]
  rfl

theorem decode_jpV0 (nnn : Addr12) : decode ((0xB : Nibble) ++ nnn) = .instr (.jpV0 nnn) := by
  obtain ⟨hop, hnnn⟩ := fields_nnn 0xB nnn
  rw [decode, hop, hnnn]
  rfl

theorem decode_rnd (x : Nibble) (kk : Byte) : decode ((0xC : Nibble) ++ x ++ kk) = .instr (.rnd x kk) := by
  obtain ⟨hop, hx, hkk⟩ := fields_xkk 0xC x kk
  rw [decode, hop, hx, hkk]
  rfl

theorem decode_drw (x y n : Nibble) : decode ((0xD : Nibble) ++ x ++ y ++ n) = .instr (.drw x y n) := by
  obtain ⟨hop, hx, hy, hn⟩ := fields_xyn 0xD x y n
  rw [decode, hop, hx, hy, hn]
  rfl

/-- Family E is keyed on the whole low byte (R63). -/
theorem decode_familyE (x : Nibble) (kk : Byte) :
    decode ((0xE : Nibble) ++ x ++ kk) =
      if kk = 0x9E then .instr (.skp x)
      else if kk = 0xA1 then .instr (.sknp x)
      else .unknown ((0xE : Nibble) ++ x ++ kk) := by
  obtain ⟨hop, hx, hkk⟩ := fields_xkk 0xE x kk
  rw [decode, hop, decodeE, hx, hkk]
  rfl

/-! ### From an instruction to its word and back -/

/-- One arm per instruction: each is its family's lemma at the row's key. -/
theorem decode_encode (i : Instr) : decode (encode i) = .instr i := by
  cases i
  case cls => exact decode_cls
  case ret => exact decode_ret
  case jp nnn => exact decode_jp nnn
  case call nnn => exact decode_call nnn
  case seImm x kk => exact decode_seImm x kk
  case sneImm x kk => exact decode_sneImm x kk
  case seReg x y => exact decode_family5 x y 0
  case ldImm x kk => exact decode_ldImm x kk
  case addImm x kk => exact decode_addImm x kk
  case ldReg x y | orReg x y | andReg x y | xorReg x y | addReg x y | subReg x y | shr x y | subnReg x y | shl x y =>
    exact decode_family8 x y _
  case sneReg x y => exact decode_family9 x y 0
  case ldI nnn => exact decode_ldI nnn
  case jpV0 nnn => exact decode_jpV0 nnn
  case rnd x kk => exact decode_rnd x kk
  case drw x y n => exact decode_drw x y n
  case skp x | sknp x => exact decode_familyE x _
  case ldVxDt x | ldVxK x | ldDtVx x | ldStVx x | addI x | ldF x | ldB x | ldMemVx x | ldVxMem x =>
    exact decode_familyF x _

/-- Settles O1: the word of the encoding decodes to the instruction, and its two bytes are that word again. -/
theorem encodeThenDecodeGivesTheInstruction : Obligations.EncodeThenDecodeGivesTheInstruction := by
  intro i rest
  refine ⟨decode_encode i, ?_⟩
  rw [decodeBytes, wordOfBytes_hi_lo, decode_encode]

/-! ### From a word to what it decodes to and back -/

/-- The word that a decoding stands for: of an instruction its encoding, of an unknown word that word. -/
def Decoded.word : Decoded → Word
  | .instr i => encode i
  | .unknown w => w

section

variable {w : Word} {op sub : Nibble} {fn : Byte}

theorem word_eq_nnn_of_opField (hop : opField w = op) : op ++ nnnField w = w :=
  hop ▸ (word_eq_nnn w).symm

theorem word_eq_xkk_of_opField (hop : opField w = op) : op ++ xField w ++ kkField w = w :=
  hop ▸ (word_eq_xkk w).symm

theorem word_eq_xyn_of_opField (hop : opField w = op) : op ++ xField w ++ yField w ++ nField w = w :=
  hop ▸ (word_eq_xyn w).symm

theorem word_eq_x_of_kkField (hop : opField w = op) (hkk : kkField w = fn) : op ++ xField w ++ fn = w :=
  hkk ▸ word_eq_xkk_of_opField hop

theorem word_eq_xy_of_nField (hop : opField w = op) (hn : nField w = sub) : op ++ xField w ++ yField w ++ sub = w :=
  hn ▸ word_eq_xyn_of_opField hop

/-- One line of the families keyed on the low byte. -/
theorem word_ite_kkField {i : Instr} {d : Decoded} (hi : encode i = op ++ xField w ++ fn) (hop : opField w = op)
    (hd : d.word = w) : (if kkField w = fn then .instr i else d : Decoded).word = w := by
  split
  case isTrue hkk => exact hi.trans (word_eq_x_of_kkField hop hkk)
  case isFalse => exact hd

theorem decode0_word : (decode0 w).word = w := by
  unfold decode0
  split_ifs with hcls hret
  · exact hcls.symm
  · exact hret.symm
  · rfl

theorem decode8_word (hop : opField w = 0x8) : (decode8 w).word = w := by
  unfold decode8
  split
  case h_1 hn | h_2 hn | h_3 hn | h_4 hn | h_5 hn | h_6 hn | h_7 hn | h_8 hn | h_9 hn =>
    exact word_eq_xy_of_nField hop (BitVec.eq_of_toNat_eq hn)
  case h_10 => rfl

theorem decodeE_word (hop : opField w = 0xE) : (decodeE w).word = w :=
  word_ite_kkField rfl hop (word_ite_kkField rfl hop rfl)

theorem decodeF_word (hop : opField w = 0xF) : (decodeF w).word = w := by
  unfold decodeF
  iterate 9 refine word_ite_kkField rfl hop ?_
  rfl

/-- Families 5 and 9, which have one known low digit. -/
theorem word_ite_nField {i : Instr} (hi : encode i = op ++ xField w ++ yField w ++ (0x0 : Nibble))
    (hop : opField w = op) : (if nField w = 0 then .instr i else .unknown w : Decoded).word = w := by
  split
  case isTrue hn => exact hi.trans (word_eq_xy_of_nField hop hn)
  case isFalse => rfl

end

/-- Every word is the word of what it decodes to: of an instruction its encoding, of `Unknown` the word itself. -/
theorem decode_word (w : Word) : (decode w).word = w := by
  have hop {op : Nibble} (h : (opField w).toNat = op.toNat) : opField w = op := BitVec.eq_of_toNat_eq h
  unfold decode
  split
  case h_1 => exact decode0_word
  case h_2 h | h_3 h | h_11 h | h_12 h => exact word_eq_nnn_of_opField (hop h)
  case h_4 h | h_5 h | h_7 h | h_8 h | h_13 h => exact word_eq_xkk_of_opField (hop h)
  case h_6 h | h_10 h => exact word_ite_nField rfl (hop h)
  case h_9 h => exact decode8_word (hop h)
  case h_14 h => exact word_eq_xyn_of_opField (hop h)
  case h_15 h => exact decodeE_word (hop h)
  case h_16 =>
    have h15 : (opField w).toNat = 15 := by have hlt := (opField w).isLt; grind
    exact decodeF_word (hop h15)

theorem encode_of_decode_eq_instr {w : Word} {i : Instr} (h : decode w = .instr i) : encode i = w :=
  (congrArg Decoded.word h).symm.trans (decode_word w)

theorem eq_of_decode_eq_unknown {w u : Word} (h : decode w = .unknown u) : u = w :=
  (congrArg Decoded.word h).symm.trans (decode_word w)

/-- Settles O2: the word of what a word decodes to is the word itself, and an instruction's word is its encoding. -/
theorem decodeThenEncodeGivesTheWord : Obligations.DecodeThenEncodeGivesTheWord :=
  fun _ _ h => encode_of_decode_eq_instr h

/-! ### The rows of the opcode map -/

/-- The per-instruction facts of Laws.EncodingRow as one: an encoding lies in the row of its instruction. -/
theorem Laws.EncodingRow.statement : ∀ i, Statement i
  | .cls => cls
  | .ret => ret
  | .jp nnn => jp nnn
  | .call nnn => call nnn
  | .seImm x kk => seImm x kk
  | .sneImm x kk => sneImm x kk
  | .seReg x y => seReg x y
  | .ldImm x kk => ldImm x kk
  | .addImm x kk => addImm x kk
  | .ldReg x y => ldReg x y
  | .orReg x y => orReg x y
  | .andReg x y => andReg x y
  | .xorReg x y => xorReg x y
  | .addReg x y => addReg x y
  | .subReg x y => subReg x y
  | .shr x y => shr x y
  | .subnReg x y => subnReg x y
  | .shl x y => shl x y
  | .sneReg x y => sneReg x y
  | .ldI nnn => ldI nnn
  | .jpV0 nnn => jpV0 nnn
  | .rnd x kk => rnd x kk
  | .drw x y n => drw x y n
  | .skp x => skp x
  | .sknp x => sknp x
  | .ldVxDt x => ldVxDt x
  | .ldVxK x => ldVxK x
  | .ldDtVx x => ldDtVx x
  | .ldStVx x => ldStVx x
  | .addI x => addI x
  | .ldF x => ldF x
  | .ldB x => ldB x
  | .ldMemVx x => ldMemVx x
  | .ldVxMem x => ldVxMem x

section

variable {w : Word} {op sub : Nibble} {fn : Byte}

/-- The converse of `mask_nnn`: a word that matches under the primary key is that key and an `nnn`. -/
theorem word_eq_of_mask_nnn (h : w &&& 0xF000 = op ++ (0 : Addr12)) : op ++ nnnField w = w := by
  rw [word_eq_nnn w, Laws.EncodingRow.mask_nnn] at h
  have hop : opField w = op := by
    rw [← (fields_nnn (opField w) 0).1, h, (fields_nnn op 0).1]
  exact word_eq_nnn_of_opField hop

theorem word_eq_of_mask_xkk (h : w &&& 0xF000 = op ++ (0 : Addr12)) : op ++ xField w ++ kkField w = w := by
  have hop := (fields_nnn op (nnnField w)).1
  rw [word_eq_of_mask_nnn h] at hop
  exact word_eq_xkk_of_opField hop

theorem word_eq_of_mask_xyn (h : w &&& 0xF000 = op ++ (0 : Addr12)) :
    op ++ xField w ++ yField w ++ nField w = w := by
  have hop := (fields_nnn op (nnnField w)).1
  rw [word_eq_of_mask_nnn h] at hop
  exact word_eq_xyn_of_opField hop

theorem word_eq_of_mask_x (h : w &&& 0xF0FF = op ++ (0 : Nibble) ++ fn) : op ++ xField w ++ fn = w := by
  rw [word_eq_xkk w, Laws.EncodingRow.mask_x] at h
  obtain ⟨hop, -, hkk⟩ := fields_xkk (opField w) 0 (kkField w)
  obtain ⟨hop', -, hkk'⟩ := fields_xkk op 0 fn
  rw [h] at hop hkk
  exact word_eq_x_of_kkField (hop.symm.trans hop') (hkk.symm.trans hkk')

theorem word_eq_of_mask_xy (h : w &&& 0xF00F = op ++ (0 : Byte) ++ sub) :
    op ++ xField w ++ yField w ++ sub = w := by
  have hzero (u v : Nibble) : u ++ (0 : Byte) ++ v = u ++ (0 : Nibble) ++ (0 : Nibble) ++ v :=
    congrArg (· ++ v) (BitVec.append_assoc (x₁ := u) (x₂ := (0 : Nibble)) (x₃ := (0 : Nibble))).symm
  rw [word_eq_xyn w, Laws.EncodingRow.mask_xy, hzero, hzero] at h
  obtain ⟨hop, -, -, hn⟩ := fields_xyn (opField w) 0 0 (nField w)
  obtain ⟨hop', -, -, hn'⟩ := fields_xyn op 0 0 sub
  rw [h] at hop hn
  exact word_eq_xy_of_nField (hop.symm.trans hop') (hn.symm.trans hn')

end

/-- The words under a row of the map, row by row. -/
theorem exists_encode_of_row : ∀ r ∈ opcodeRows, ∀ w : Word, w &&& r.mask = r.pattern →
    ∃ i, encode i = w ∧ i.row = r.row := by
  simp only [opcodeRows, opcodeRowsLow, opcodeRowsHigh, List.cons_append, List.nil_append, List.forall_mem_cons,
    List.not_mem_nil, false_imp_iff, implies_true, and_true]
  exact ⟨fun _ h => ⟨.cls, h.symm.trans BitVec.and_allOnes, rfl⟩,
    fun _ h => ⟨.ret, h.symm.trans BitVec.and_allOnes, rfl⟩,
    fun _ h => ⟨.jp _, word_eq_of_mask_nnn h, rfl⟩,
    fun _ h => ⟨.call _, word_eq_of_mask_nnn h, rfl⟩,
    fun _ h => ⟨.seImm _ _, word_eq_of_mask_xkk h, rfl⟩,
    fun _ h => ⟨.sneImm _ _, word_eq_of_mask_xkk h, rfl⟩,
    fun _ h => ⟨.seReg _ _, word_eq_of_mask_xy h, rfl⟩,
    fun _ h => ⟨.ldImm _ _, word_eq_of_mask_xkk h, rfl⟩,
    fun _ h => ⟨.addImm _ _, word_eq_of_mask_xkk h, rfl⟩,
    fun _ h => ⟨.ldReg _ _, word_eq_of_mask_xy h, rfl⟩,
    fun _ h => ⟨.orReg _ _, word_eq_of_mask_xy h, rfl⟩,
    fun _ h => ⟨.andReg _ _, word_eq_of_mask_xy h, rfl⟩,
    fun _ h => ⟨.xorReg _ _, word_eq_of_mask_xy h, rfl⟩,
    fun _ h => ⟨.addReg _ _, word_eq_of_mask_xy h, rfl⟩,
    fun _ h => ⟨.subReg _ _, word_eq_of_mask_xy h, rfl⟩,
    fun _ h => ⟨.shr _ _, word_eq_of_mask_xy h, rfl⟩,
    fun _ h => ⟨.subnReg _ _, word_eq_of_mask_xy h, rfl⟩,
    fun _ h => ⟨.shl _ _, word_eq_of_mask_xy h, rfl⟩,
    fun _ h => ⟨.sneReg _ _, word_eq_of_mask_xy h, rfl⟩,
    fun _ h => ⟨.ldI _, word_eq_of_mask_nnn h, rfl⟩,
    fun _ h => ⟨.jpV0 _, word_eq_of_mask_nnn h, rfl⟩,
    fun _ h => ⟨.rnd _ _, word_eq_of_mask_xkk h, rfl⟩,
    fun _ h => ⟨.drw _ _ _, word_eq_of_mask_xyn h, rfl⟩,
    fun _ h => ⟨.skp _, word_eq_of_mask_x h, rfl⟩,
    fun _ h => ⟨.sknp _, word_eq_of_mask_x h, rfl⟩,
    fun _ h => ⟨.ldVxDt _, word_eq_of_mask_x h, rfl⟩,
    fun _ h => ⟨.ldVxK _, word_eq_of_mask_x h, rfl⟩,
    fun _ h => ⟨.ldDtVx _, word_eq_of_mask_x h, rfl⟩,
    fun _ h => ⟨.ldStVx _, word_eq_of_mask_x h, rfl⟩,
    fun _ h => ⟨.addI _, word_eq_of_mask_x h, rfl⟩,
    fun _ h => ⟨.ldF _, word_eq_of_mask_x h, rfl⟩,
    fun _ h => ⟨.ldB _, word_eq_of_mask_x h, rfl⟩,
    fun _ h => ⟨.ldMemVx _, word_eq_of_mask_x h, rfl⟩,
    fun _ h => ⟨.ldVxMem _, word_eq_of_mask_x h, rfl⟩⟩

theorem eq_of_row_eq : ∀ r ∈ opcodeRows, ∀ r' ∈ opcodeRows, r.row = r'.row → r = r' := by decide

/-- Settles O3: the words under a row are the encodings of its instruction, and an encoding decodes to its instruction
alone. -/
theorem wordDecodesByItsOpcodeRow : Obligations.WordDecodesByItsOpcodeRow := by
  have decodes {w : Word} {r : OpcodeRow} (hr : r ∈ opcodeRows) (hmatch : w &&& r.mask = r.pattern) :
      ∃ i, decode w = .instr i ∧ i.row = r.row := by
    obtain ⟨i, rfl, hrow⟩ := exists_encode_of_row r hr w hmatch
    exact ⟨i, decode_encode i, hrow⟩
  refine ⟨fun w r hr => ⟨decodes hr, ?_⟩, fun w r r' hr hr' hmatch hmatch' => ?_⟩
  · rintro ⟨i, hdecode, hrow⟩
    obtain ⟨r', hr', hrow', hmatch⟩ := (Laws.EncodingRow.statement i).2
    rw [← encode_of_decode_eq_instr hdecode, ← eq_of_row_eq r' hr' r hr (hrow'.trans hrow)]
    exact hmatch
  · obtain ⟨i, hdecode, hrow⟩ := decodes hr hmatch
    obtain ⟨i', hdecode', hrow'⟩ := decodes hr' hmatch'
    cases hdecode.symm.trans hdecode'
    exact eq_of_row_eq r hr r' hr' (hrow.symm.trans hrow')

/-- Settles O4: a word that decodes to an instruction is its encoding, which matches a row. -/
theorem unmatchedWordIsUnknown : Obligations.UnmatchedWordIsUnknown := by
  intro w hunmatched
  match hdecode : decode w with
  | .unknown u => rw [eq_of_decode_eq_unknown hdecode]
  | .instr i =>
    obtain ⟨r, hr, -, hmatch⟩ := (Laws.EncodingRow.statement i).2
    rw [encode_of_decode_eq_instr hdecode] at hmatch
    exact absurd hmatch (hunmatched r hr)

/-- Settles O5: nine fixed words. -/
theorem publishedWordsDecode : Obligations.PublishedWordsDecode := by
  unfold Obligations.PublishedWordsDecode
  decide

end Sys2Proof
end

section
/-!
What an instruction can do (10_state.md section 1, 60_exceptions.md R152): each answers either the one fault listed for
it, or a next state that differs in `pc`, the pieces listed as its writes and the registers listed as its destinations.
-/

namespace Sys2Proof.Machine

variable {s t u : State}

/-! ### Frames of single writes -/

theorem Keeps.trans {p : Part} (hst : Keeps p s t) (htu : Keeps p t u) : Keeps p s u := by
  cases p
  case regs | keys | display | memory => exact fun a => (htu a).trans (hst a)
  case pc | index | stack | delay | sound | playing | fault | draws | config | schedule | signal =>
    exact Eq.trans htu hst

theorem FrameBut.trans {ps : List Part} (hst : FrameBut ps s t) (htu : FrameBut ps t u) : FrameBut ps s u :=
  fun p hp => (hst p hp).trans (htu p hp)

/-- Two pieces written one after the other. -/
theorem FrameBut.append {ps qs : List Part} (hst : FrameBut ps s t) (htu : FrameBut qs t u) :
    FrameBut (ps ++ qs) s u :=
  (hst.mono (List.subset_append_left ps qs)).trans (htu.mono (List.subset_append_right ps qs))

theorem frameBut_stack (st : List Word) : FrameBut [.stack] s { s with stack := st } := by
  intro p hp
  cases p
  case stack => exact absurd (List.mem_singleton_self _) hp
  case regs | keys | display | memory => exact fun _ => rfl
  case pc | index | delay | sound | playing | fault | draws | config | schedule | signal => rfl

theorem frameBut_mem (m : List Host.Cell) : FrameBut [.memory] s { s with mem := m } := by
  intro p hp
  cases p
  case memory => exact absurd (List.mem_singleton_self _) hp
  case regs | keys | display => exact fun _ => rfl
  case pc | index | stack | delay | sound | playing | fault | draws | config | schedule | signal => rfl

theorem frameBut_disp (d : List Nat) : FrameBut [.display] s { s with disp := d } := by
  intro p hp
  cases p
  case display => exact absurd (List.mem_singleton_self _) hp
  case regs | keys | memory => exact fun _ => rfl
  case pc | index | stack | delay | sound | playing | fault | draws | config | schedule | signal => rfl

theorem frameBut_draws (k : Nat) : FrameBut [.draws] s { s with draws := k } := by
  intro p hp
  cases p
  case draws => exact absurd (List.mem_singleton_self _) hp
  case regs | keys | display | memory => exact fun _ => rfl
  case pc | index | stack | delay | sound | playing | fault | config | schedule | signal => rfl

theorem frameBut_fault (f : Option FaultRecord) : FrameBut [.fault] s { s with fault := f } := by
  intro p hp
  cases p
  case fault => exact absurd (List.mem_singleton_self _) hp
  case regs | keys | display | memory => exact fun _ => rfl
  case pc | index | stack | delay | sound | playing | draws | config | schedule | signal => rfl

theorem frameBut_regs (V : Vector Byte 16) : FrameBut [.regs] s { s with V := V } := by
  intro p hp
  cases p
  case regs => exact absurd (List.mem_singleton_self _) hp
  case keys | display | memory => exact fun _ => rfl
  case pc | index | stack | delay | sound | playing | fault | draws | config | schedule | signal => rfl

theorem RegsBut.of_frameBut {ps : List Part} {rs : List Nibble} (h : FrameBut ps s t) (hps : .regs ∉ ps) :
    RegsBut rs s t :=
  fun r _ => h .regs hps r

theorem State.reg_setReg_same (x : Nibble) (v : Byte) : (s.setReg x v).reg x = v := by
  rw [State.reg_setReg, if_pos rfl]

theorem State.reg_setReg_ne {x r : Nibble} (h : r ≠ x) (v : Byte) : (s.setReg x v).reg r = s.reg r := by
  rw [State.reg_setReg, if_neg h]

/-! ### Results with a flag (41_alu.md R113, D7, D32) -/

theorem flagByte_decide (p : Prop) [Decidable p] : flagByte (decide p) = if p then 1 else 0 := by
  simp [flagByte]

/-- What a destination and `VF` written in any order and number change. -/
def WritesResultAndFlag (x : Nibble) (s t : State) : Prop :=
  RegsBut [x, VF] s t ∧ t.pc = s.pc + 2 ∧ FrameBut [.regs, .pc] s t

namespace WritesResultAndFlag

variable {x : Nibble}

theorem advance : WritesResultAndFlag x s s.advance := ⟨fun _ _ => rfl, rfl, frameBut_advance .regs⟩

theorem setReg {r : Nibble} (h : WritesResultAndFlag x s t) (hr : r ∈ [x, VF]) (v : Byte) :
    WritesResultAndFlag x s (t.setReg r v) := by
  obtain ⟨hregs, hpc, hframe⟩ := h
  exact ⟨hregs.setReg hr v, hpc, hframe.setReg List.mem_cons_self r v⟩

theorem setReg_x (h : WritesResultAndFlag x s t) (v : Byte) : WritesResultAndFlag x s (t.setReg x v) :=
  h.setReg List.mem_cons_self v

theorem setReg_VF (h : WritesResultAndFlag x s t) (v : Byte) : WritesResultAndFlag x s (t.setReg VF v) :=
  h.setReg (List.mem_cons_of_mem x List.mem_cons_self) v

end WritesResultAndFlag

/-- The flag is written last, so it is there for every `x`; the result is there unless `x` is the flag. -/
theorem exists_next_of_eq_resultFlag {o : Out} {x : Nibble} {v f f' : Byte} (h : o = s.resultFlag x v f)
    (P : Byte → Prop) (hv : P v) (hf : f = f') :
    ∃ t, o = .next t ∧ (x ≠ VF → P (t.reg x)) ∧ t.reg VF = f' ∧ WritesResultAndFlag x s t := by
  refine ⟨_, h, fun hx => ?_, ?_, (WritesResultAndFlag.advance.setReg_x v).setReg_VF f⟩
  · rwa [State.reg_setReg_ne hx, State.reg_setReg_same]
  · rw [State.reg_setReg_same, hf]

/-- The three writes of a shift: with `x = 15` the last one shifts the flag the second has written. -/
theorem exists_next_of_eq_shiftBy {o : Out} {x y : Nibble} {flag shift : Byte → Byte}
    (h : o = s.shiftBy x y flag shift) :
    ∃ t, o = .next t ∧ (x ≠ VF → t.reg x = shift (s.reg y) ∧ t.reg VF = flag (s.reg y)) ∧
      (x = VF → t.reg VF = shift (flag (s.reg y))) ∧ WritesResultAndFlag x s t := by
  refine ⟨_, h, fun hx => ⟨?_, ?_⟩, fun hx => ?_,
    ((WritesResultAndFlag.advance.setReg_x _).setReg_VF _).setReg_x _⟩
  · rw [State.reg_setReg_same, State.reg_setReg_ne hx, State.reg_setReg_same]
  · rw [State.reg_setReg_ne (Ne.symm hx), State.reg_setReg_same, State.reg_setReg_same]
  · rw [hx, State.reg_setReg_same, State.reg_setReg_same, State.reg_setReg_same]

/-! ### Frames of the writes an instruction makes together -/

theorem frameBut_result (x : Nibble) (v : Byte) : FrameBut [.regs, .pc] s (s.advance.setReg x v) :=
  (frameBut_advance .regs).setReg List.mem_cons_self x v

theorem regsBut_setReg (x : Nibble) (v : Byte) : RegsBut [x] s (s.setReg x v) :=
  RegsBut.setReg (fun _ _ => rfl) (List.mem_singleton_self x) v

theorem frameBut_nextDraw_result (x : Nibble) (v : Byte) :
    FrameBut [.regs, .draws, .pc] s (s.nextDraw.advance.setReg x v) :=
  ((frameBut_draws _).mono (by simp)).trans ((frameBut_result x v).mono (by simp))

theorem frameBut_stack_setPc (st : List Word) (a : Word) :
    FrameBut [.stack, .pc] s (({ s with stack := st } : State).setPc a) :=
  (frameBut_stack st).append (frameBut_setPc a)

theorem frameBut_advance_writeBytes (a : Nat) (bs : List Byte) :
    FrameBut [.memory, .pc] s (s.advance.writeBytes a bs) :=
  (frameBut_advance .memory).trans ((frameBut_mem _).mono (by simp))

theorem frameBut_advance_setDisp_setReg (d : List Nat) (x : Nibble) (v : Byte) :
    FrameBut [.display, .regs, .pc] s ((s.advance.setDisp d).setReg x v) :=
  (((frameBut_setPc _).mono (by simp)).trans ((frameBut_disp d).mono (by simp))).setReg (by simp) x v

theorem frameBut_advance_loadRegs (a k : Nat) : FrameBut [.regs, .pc] s (s.advance.loadRegs a k) := by
  rw [State.loadRegs_eq]
  exact (frameBut_advance .regs).trans ((frameBut_regs _).mono (by simp))

/-- A block load writes the registers up to `x` alone. -/
theorem regsBut_loadRegs (a : Nat) (x : Nibble) :
    RegsBut (instrDestRegs (.ldVxMem x)) s (s.loadRegs a (x.toNat + 1)) := by
  intro r hr
  rw [State.reg_loadRegs s a _ (by omega)]
  refine if_neg fun hlt => hr ?_
  exact List.mem_map.2 ⟨r.toNat, List.mem_range.2 hlt, BitVec.ofNat_toNat 4 r⟩

/-! ### The instructions that check a condition, case by case -/

theorem exec_ret_of_nil (h : s.stack = []) : exec .ret s = .next (s.faulted .stackUnderflow (encode .ret)) := by
  rw [exec, execRet, h]
  rfl

theorem exec_ret_of_append {rest : List Word} {a : Word} (h : s.stack = rest ++ [a]) :
    exec .ret s = .next (({ s with stack := rest } : State).setPc a) := by
  rw [exec, execRet, State.dropTop, h]
  simp

theorem exec_call_of_full {nnn : Addr12} (h : s.cfg.stackLimit = some s.stack.length) :
    exec (.call nnn) s = .next (s.faulted .stackOverflow (encode (.call nnn))) :=
  if_pos (by simpa [State.stackFull] using h)

theorem exec_call_of_not_full {nnn : Addr12} (h : s.cfg.stackLimit ≠ some s.stack.length) :
    exec (.call nnn) s = .next (({ s with stack := s.stack ++ [s.pc + 2] } : State).setPc (absTarget nnn)) :=
  if_neg (by simpa [State.stackFull] using h)

theorem State.keyIndex_eq_none {x : Nibble} (h : (s.reg x).toNat > 15) : s.keyIndex x = none := if_pos h

theorem State.keyIndex_eq_some {x k : Nibble} (h : (s.reg x).toNat = k.toNat) : s.keyIndex x = some k := by
  have hk : (s.reg x).setWidth 4 = k := by
    apply BitVec.eq_of_toNat_eq
    rw [BitVec.toNat_setWidth, h, Nat.mod_eq_of_lt k.isLt]
  have hle : ¬ (s.reg x).toNat > 15 := by omega
  rw [State.keyIndex, if_neg hle, hk]

theorem exec_skp_of_eq_none {x : Nibble} (h : s.keyIndex x = none) :
    exec (.skp x) s = .next (s.faulted .keyIndexOutOfRange (encode (.skp x))) := by
  rw [exec, execSkp, h]
  rfl

theorem exec_skp_of_eq_some {x k : Nibble} (h : s.keyIndex x = some k) :
    exec (.skp x) s = .next (s.setPc (if s.keyHeld k then s.pc + 4 else s.pc + 2)) := by
  rw [exec, execSkp, h, ← State.advance_skipIf]

theorem exec_sknp_of_eq_none {x : Nibble} (h : s.keyIndex x = none) :
    exec (.sknp x) s = .next (s.faulted .keyIndexOutOfRange (encode (.sknp x))) := by
  rw [exec, execSknp, h]
  rfl

theorem exec_sknp_of_eq_some {x k : Nibble} (h : s.keyIndex x = some k) :
    exec (.sknp x) s = .next (s.setPc (if s.keyHeld k then s.pc + 2 else s.pc + 4)) := by
  rw [exec, execSknp, h]
  cases hheld : s.keyHeld k <;> simp [State.advance_skipIf, hheld]

/-! ### The effect of an instruction -/

/-- What an instruction writes on the way to its next state. -/
def Writes (i : Instr) (s t : State) : Prop :=
  FrameBut (instrWrites i ++ [.pc]) s t ∧ RegsBut (instrDestRegs i) s t

/-- The instructions with no register among their writes. -/
theorem Writes.of_frameBut {i : Instr} (h : FrameBut (instrWrites i ++ [.pc]) s t)
    (hregs : .regs ∉ instrWrites i ++ [.pc] := by simp [instrWrites]) : Writes i s t :=
  ⟨h, .of_frameBut h hregs⟩

/-- The instructions that write `pc` alone. -/
theorem Writes.setPc {i : Instr} (a : Word) (hi : instrWrites i = [] := by rfl) : Writes i s (s.setPc a) := by
  have hframe : FrameBut (instrWrites i ++ [.pc]) s (s.setPc a) := by
    rw [hi]
    exact frameBut_setPc a
  exact .of_frameBut hframe (by simp [hi])

/-- The outcome `o` of `i` from `s` is its listed fault, or a next state with nothing but its writes. -/
def Answers (i : Instr) (s : State) (o : Out) : Prop :=
  (∃ c, instrFaultCause i = some c ∧ o = .next (s.faulted c (encode i))) ∨ ∃ t, o = .next t ∧ Writes i s t

namespace Answers

variable {i : Instr} {o : Out}

theorem fault {c : Cause} (ho : o = .next (s.faulted c (encode i))) (hc : instrFaultCause i = some c) :
    Answers i s o :=
  .inl ⟨c, hc, ho⟩

theorem next (ho : o = .next t) (h : Writes i s t) : Answers i s o := .inr ⟨t, ho, h⟩

/-- The shape of the instructions that check their range before they act. -/
theorem ite_raise {p : Prop} [Decidable p] {c : Cause} (hc : instrFaultCause i = some c) (h : Writes i s t) :
    Answers i s (if p then s.raise c (encode i) else .next t) := by
  split
  · exact fault rfl hc
  · exact next rfl h

end Answers

theorem exec_ret_answers : Answers .ret s (exec .ret s) := by
  rcases List.eq_nil_or_concat' s.stack with hnil | ⟨rest, a, happend⟩
  · exact .fault (exec_ret_of_nil hnil) rfl
  · exact .next (exec_ret_of_append happend) (.of_frameBut (frameBut_stack_setPc rest a))

theorem exec_call_answers (nnn : Addr12) : Answers (.call nnn) s (exec (.call nnn) s) := by
  by_cases hfull : s.cfg.stackLimit = some s.stack.length
  · exact .fault (exec_call_of_full hfull) rfl
  · exact .next (exec_call_of_not_full hfull) (.of_frameBut (frameBut_stack_setPc _ _))

theorem exec_skp_answers (x : Nibble) : Answers (.skp x) s (exec (.skp x) s) := by
  cases hk : s.keyIndex x with
  | none => exact .fault (exec_skp_of_eq_none hk) rfl
  | some k => exact .next (exec_skp_of_eq_some hk) (.setPc _)

theorem exec_sknp_answers (x : Nibble) : Answers (.sknp x) s (exec (.sknp x) s) := by
  cases hk : s.keyIndex x with
  | none => exact .fault (exec_sknp_of_eq_none hk) rfl
  | some k => exact .next (exec_sknp_of_eq_some hk) (.setPc _)

theorem exec_ldVxK_answers (x : Nibble) : Answers (.ldVxK x) s (exec (.ldVxK x) s) := by
  cases hk : s.lowestKey with
  | none =>
    have hsame : FrameBut [.regs, .pc] s s := (frameBut_regs s.V).mono (by simp)
    exact .next (exec_ldVxK_of_lowestKey_eq_none hk x) ⟨hsame, fun _ _ => rfl⟩
  | some k => exact .next (exec_ldVxK_of_lowestKey_eq_some hk x) ⟨frameBut_result x _, regsBut_setReg x _⟩

/-- Every instruction, from every state. -/
theorem exec_answers (i : Instr) (s : State) : Answers i s (exec i s) := by
  cases i
  case cls => exact .next rfl (.of_frameBut frameBut_advance_clearDisp)
  case ret => exact exec_ret_answers
  case jp | jpV0 => exact .next rfl (.setPc _)
  case call nnn => exact exec_call_answers nnn
  case seImm x kk => exact .next (exec_seImm x kk) (.setPc _)
  case sneImm x kk => exact .next (exec_sneImm x kk) (.setPc _)
  case seReg x y => exact .next (exec_seReg x y) (.setPc _)
  case sneReg x y => exact .next (exec_sneReg x y) (.setPc _)
  case ldImm x _ | addImm x _ | ldReg x _ | orReg x _ | andReg x _ | xorReg x _ | ldVxDt x =>
    exact .next rfl ⟨frameBut_result x _, regsBut_setReg x _⟩
  case addReg x _ | subReg x _ | subnReg x _ =>
    obtain ⟨hregs, -, hframe⟩ := (WritesResultAndFlag.advance.setReg_x _).setReg_VF _
    exact .next rfl ⟨hframe, hregs⟩
  case shr x _ | shl x _ =>
    obtain ⟨hregs, -, hframe⟩ := ((WritesResultAndFlag.advance.setReg_x _).setReg_VF _).setReg_x _
    exact .next rfl ⟨hframe, hregs⟩
  case rnd x _ => exact .next rfl ⟨frameBut_nextDraw_result x _, regsBut_setReg x _⟩
  case drw => exact .ite_raise rfl ⟨frameBut_advance_setDisp_setReg _ VF _, regsBut_setReg VF _⟩
  case skp x => exact exec_skp_answers x
  case sknp x => exact exec_sknp_answers x
  case ldVxK x => exact exec_ldVxK_answers x
  case ldDtVx => exact .next rfl (.of_frameBut (frameBut_advance_setDT _))
  case ldStVx => exact .next rfl (.of_frameBut (frameBut_advance_setST _))
  case ldI | addI | ldF => exact .next rfl (.of_frameBut (frameBut_advance_setI _))
  case ldB | ldMemVx => exact .ite_raise rfl (.of_frameBut (frameBut_advance_writeBytes _ _))
  case ldVxMem x => exact .ite_raise rfl ⟨frameBut_advance_loadRegs _ _, regsBut_loadRegs _ x⟩

/-- No instruction writes the fault record on the way to its next state. -/
theorem Writes.fault_eq {i : Instr} (h : Writes i s t) : t.fault = s.fault := by
  obtain ⟨hframe, -⟩ := h
  exact hframe .fault (by cases i <;> simp [instrWrites])

/-! ### The statements about every instruction -/

/-- Settles O10: a listed fault is a next state too. -/
theorem everyInstructionAnswersANextState : Obligations.EveryInstructionAnswersANextState := by
  intro i s
  rcases exec_answers i s with ⟨c, -, hnext⟩ | ⟨t, hnext, -⟩
  · exact ⟨_, hnext⟩
  · exact ⟨t, hnext⟩

/-- Settles O39: a fault writes the record alone, and the writes of an instruction are those listed and `pc`. -/
theorem eachPieceHasOnlyItsWriters : Obligations.EachPieceHasOnlyItsWriters := by
  intro i s t hexec
  rcases exec_answers i s with ⟨c, -, hnext⟩ | ⟨_, hnext, hframe, -⟩ <;> cases hexec.symm.trans hnext
  · exact (frameBut_fault _).mono (by simp)
  · exact hframe.mono (by simp)

/-- Settles O40: a fault writes no register. -/
theorem onlyDestinationRegistersChange : Obligations.OnlyDestinationRegistersChange := by
  intro i s t hexec
  rcases exec_answers i s with ⟨c, -, hnext⟩ | ⟨_, hnext, -, hregs⟩ <;> cases hexec.symm.trans hnext
  · exact fun _ _ => rfl
  · exact hregs

/-- Settles O41: the record is new only in the listed fault. -/
theorem faultsArePreciseAndListed : Obligations.FaultsArePreciseAndListed := by
  intro i s t hs hexec
  rcases exec_answers i s with ⟨c, hc, hnext⟩ | ⟨_, hnext, hwrites⟩ <;> cases hexec.symm.trans hnext
  · exact .inr ⟨c, hc, rfl⟩
  · exact .inl (hwrites.fault_eq.trans hs)

end Sys2Proof.Machine
end

section
/-!
The statements about single instructions that the sections on their files leave open (40_control_transfer.md,
41_alu.md, 42_index_memory.md, 44_keys_timers.md): their words, values and flags.
-/

namespace Sys2Proof.Machine

variable {s : State}

/-! ### Values -/

theorem lowBitFlag_toNat (v : Byte) : (lowBitFlag v).toNat = v.toNat % 2 := by
  rw [lowBitFlag, BitVec.getLsbD, Nat.testBit_zero, flagByte_decide]
  rcases Nat.mod_two_eq_zero_or_one v.toNat with h | h <;> rw [h] <;> rfl

theorem highBitFlag_eq (v : Byte) : highBitFlag v = if v.toNat ≥ 128 then 1 else 0 := by
  have hbit : v.getLsbD 7 = decide (v.toNat ≥ 128) := by
    rw [BitVec.getLsbD, Nat.testBit_eq_decide_div_mod_eq]
    exact decide_eq_decide.2 (by omega)
  rw [highBitFlag, hbit, flagByte_decide]

theorem highBitFlag_toNat (v : Byte) : (highBitFlag v).toNat = v.toNat / 128 := by
  have hlt := v.isLt
  rw [highBitFlag_eq]
  split
  case isTrue =>
    have hone : v.toNat / 128 = 1 := by omega
    exact hone.symm
  case isFalse =>
    have hzero : v.toNat / 128 = 0 := by omega
    exact hzero.symm

theorem shiftLeft_one_toNat (v : Byte) : (v <<< 1).toNat = v.toNat * 2 % 256 := by
  rw [BitVec.toNat_shiftLeft, Nat.shiftLeft_eq]

theorem lowBitFlag_ushiftRight_one (v : Byte) : lowBitFlag v >>> 1 = 0 := by
  unfold lowBitFlag flagByte
  split <;> rfl

theorem exec_shr (x y : Nibble) : exec (.shr x y) s = s.shiftBy x y lowBitFlag (· >>> 1) := rfl

theorem exec_shl (x y : Nibble) : exec (.shl x y) s = s.shiftBy x y highBitFlag (· <<< 1) := rfl

/-! ### Statements -/

/-- Settles O11: the two cases of the stack. -/
theorem retPopsTheReturnAddress : Obligations.RetPopsTheReturnAddress :=
  ⟨decode_ret, fun _ hnil => exec_ret_of_nil hnil, fun _ rest a happend =>
    ⟨_, exec_ret_of_append happend, rfl, rfl, (frameBut_stack_setPc rest a).mono (by simp)⟩⟩

/-- Settles O13: the jump is one write of `pc`, of a sum that does not wrap in 16 bits. -/
theorem jpV0AddsV0 : Obligations.JpV0AddsV0 := fun nnn s =>
  ⟨decode_jpV0 nnn, _, rfl, s.offsetTarget_toNat nnn, frameBut_setPc _⟩

/-- Settles O14: the two cases of the limit. -/
theorem callPushesTheNextAddress : Obligations.CallPushesTheNextAddress := fun nnn _ =>
  ⟨decode_call nnn, fun hfull => exec_call_of_full hfull, fun hfree =>
    ⟨_, exec_call_of_not_full hfree, rfl, absTarget_toNat nnn, (frameBut_stack_setPc _ _).mono (by simp)⟩⟩

/-- Settles O20: the sum of two bytes is modulo 256, and the carry is that of the exact sum. -/
theorem addRegSetsTheCarry : Obligations.AddRegSetsTheCarry := fun x y s =>
  ⟨decode_family8 x y 0x4, exists_next_of_eq_resultFlag rfl
    (fun v => v.toNat = ((s.reg x).toNat + (s.reg y).toNat) % 256) (BitVec.toNat_add _ _) (flagByte_decide _)⟩

theorem sub_toNat (a b : Byte) : (a - b).toNat = (256 + a.toNat - b.toNat) % 256 := by
  bv_omega

theorem notBorrowFlag_eq (a b : Byte) : notBorrowFlag a b = if a.toNat < b.toNat then 0 else 1 := by
  rw [notBorrowFlag, flagByte_decide, ite_not]

/-- Settles O21: both subtractions are one operation with its arguments exchanged. -/
theorem subtractionsSetNotBorrow : Obligations.SubtractionsSetNotBorrow := fun x y s =>
  ⟨⟨decode_family8 x y 0x5, decode_family8 x y 0x7⟩,
    exists_next_of_eq_resultFlag rfl (fun v => v.toNat = (256 + (s.reg x).toNat - (s.reg y).toNat) % 256)
      (sub_toNat _ _) (notBorrowFlag_eq _ _),
    exists_next_of_eq_resultFlag rfl (fun v => v.toNat = (256 + (s.reg y).toNat - (s.reg x).toNat) % 256)
      (sub_toNat _ _) (notBorrowFlag_eq _ _)⟩

/-- Settles O22: the shifted value and the bit shifted out as numbers, and for `x = 15` the shifted flag. -/
theorem shiftsMoveVyByOne : Obligations.ShiftsMoveVyByOne := by
  intro x y s
  refine ⟨⟨decode_family8 x y 0x6, decode_family8 x y 0xE⟩, ?_, ?_⟩
  · obtain ⟨t, hnext, hresult, hflag, hwrites⟩ := exists_next_of_eq_shiftBy (exec_shr x y)
    refine ⟨t, hnext, fun hx => ?_, fun hx => (hflag hx).trans (lowBitFlag_ushiftRight_one _), hwrites⟩
    obtain ⟨hvalue, hbit⟩ := hresult hx
    rw [hvalue, hbit]
    exact ⟨BitVec.toNat_ushiftRight _ 1, lowBitFlag_toNat _⟩
  · obtain ⟨t, hnext, hresult, hflag, hwrites⟩ := exists_next_of_eq_shiftBy (exec_shl x y)
    refine ⟨t, hnext, fun hx => ?_, fun hx => ?_, hwrites⟩
    · obtain ⟨hvalue, hbit⟩ := hresult hx
      rw [hvalue, hbit]
      exact ⟨shiftLeft_one_toNat _, highBitFlag_toNat _⟩
    · rw [hflag hx, highBitFlag_eq]
      split <;> rfl

/-- Settles O23: a result like any other, of the free byte. -/
theorem rndMasksTheSuppliedByte : Obligations.RndMasksTheSuppliedByte := by
  intro x kk s
  refine ⟨decode_rnd x kk, _, rfl, ?_, rfl, regsBut_setReg x _, rfl, frameBut_nextDraw_result x _⟩
  intro b _
  rw [State.reg_setReg_same]
  exact BitVec.getLsbD_and

theorem glyphAddr_toNat (v : Byte) : (glyphAddr v).toNat = v.toNat * 5 := by
  unfold glyphAddr
  bv_omega

theorem State.regWord_toNat (x : Nibble) : (s.regWord x).toNat = (s.reg x).toNat :=
  BitVec.toNat_setWidth_of_le (by decide)

/-- Settles O25: each instruction is one write of `I`, of a sum modulo 65536 or of an exact product. -/
theorem indexArithmetic : Obligations.IndexArithmetic := by
  intro x s
  have hsum : (s.I + s.regWord x).toNat = (s.I.toNat + (s.reg x).toNat) % 65536 := by
    rw [BitVec.toNat_add, State.regWord_toNat]
  exact ⟨⟨decode_familyF x 0x1E, decode_familyF x 0x29⟩,
    ⟨_, rfl, hsum, rfl, frameBut_advance_setI _⟩, ⟨_, rfl, glyphAddr_toNat _, rfl, frameBut_advance_setI _⟩⟩

/-- Settles O34: the two cases of the index. -/
theorem keySkipsTestOneFlag : Obligations.KeySkipsTestOneFlag := by
  intro x s
  refine ⟨⟨decode_familyE x 0x9E, decode_familyE x 0xA1⟩, fun hout => ?_, fun k hk => ?_⟩
  · have hnone := State.keyIndex_eq_none hout
    exact ⟨exec_skp_of_eq_none hnone, exec_sknp_of_eq_none hnone⟩
  · have hsome := State.keyIndex_eq_some hk
    exact ⟨exists_next_of_eq_setPc (exec_skp_of_eq_some hsome),
      exists_next_of_eq_setPc (exec_sknp_of_eq_some hsome)⟩

end Sys2Proof.Machine
end

section
/-!
One step (10_state.md R23, R24): which instruction or event it runs, the faults of the fetch, and when there is none.
-/

namespace Sys2Proof.Machine

variable {s : State} {i : Instr}

/-! ### The step by its schedule -/

theorem State.not_halted (hs : s.fault = none) : ¬ s.halted = true := by
  rw [State.halted, hs]
  exact Bool.false_ne_true

theorem State.halted_eq_true (hs : s.fault ≠ none) : s.halted = true := Option.isSome_iff_ne_none.2 hs

theorem step_of_schedule_eq_cons {e : Event} {rest : List Event} (h : s.schedule = e :: rest) :
    step s = runEvent e { s with signal := none, schedule := rest } := by
  rw [step, nextStep, h]
  rfl

theorem step_of_schedule_eq_nil_ite (h : s.schedule = []) :
    step s = if s.halted then .fault .halted else instrStep (s.emit none) := by
  rw [step, nextStep, h]

theorem step_of_schedule_eq_nil (h : s.schedule = []) (hs : s.fault = none) :
    step s = instrStep { s with signal := none } :=
  (step_of_schedule_eq_nil_ite h).trans (if_neg (State.not_halted hs))

theorem step_of_halted (h : s.schedule = []) (hs : s.fault ≠ none) : step s = .fault .halted :=
  (step_of_schedule_eq_nil_ite h).trans (if_pos (State.halted_eq_true hs))

theorem runEvent_instrTick (hs : s.fault = none) : runEvent .instrTick s = instrStep s :=
  if_neg (State.not_halted hs)

theorem runEvent_instrTick_of_halted (hs : s.fault ≠ none) : runEvent .instrTick s = .next s :=
  if_pos (State.halted_eq_true hs)

theorem runEvent_timerTick_of_halted (hs : s.fault ≠ none) : runEvent .timerTick s = .next s :=
  congrArg Host.Outcome.next (if_pos (State.halted_eq_true hs))

theorem step_of_schedule_eq_instrTick {rest : List Event} (h : s.schedule = .instrTick :: rest)
    (hs : s.fault = none) : step s = instrStep { s with signal := none, schedule := rest } :=
  (step_of_schedule_eq_cons h).trans (runEvent_instrTick hs)

/-! ### The instruction step -/

theorem instrStep_of_pc_gt (hpc : s.pc.toNat > 4094) : instrStep s = .next (s.faulted .fetchOutOfRange 0) :=
  if_pos hpc

theorem instrStep_of_decode_eq_instr (hpc : s.pc.toNat ≤ 4094) (h : decode s.fetchWord = .instr i) :
    instrStep s = exec i s := by
  rw [instrStep, if_neg (by omega), h]

theorem instrStep_of_decode_eq_unknown {w : Word} (hpc : s.pc.toNat ≤ 4094)
    (h : decode s.fetchWord = .unknown w) : instrStep s = .next (s.faulted .unknownOpcode w) := by
  rw [instrStep, if_neg (by omega), h]
  rfl

theorem step_eq_exec (hs : s.fault = none) (hnil : s.schedule = []) (hpc : s.pc.toNat ≤ 4094)
    (h : decode s.fetchWord = .instr i) : step s = exec i { s with signal := none } :=
  (step_of_schedule_eq_nil hnil hs).trans (instrStep_of_decode_eq_instr hpc h)

theorem State.clear_signal_of_eq_none (h : s.signal = none) : { s with signal := none } = s := by
  rw [← h]

/-- An instruction step is a fault of the fetch or the execution of an instruction. -/
theorem instrStep_cases (s : State) :
    (∃ c w, instrStep s = .next (s.faulted c w)) ∨ ∃ i, instrStep s = exec i s := by
  rcases Nat.lt_or_ge 4094 s.pc.toNat with hpc | hpc
  · exact .inl ⟨_, _, instrStep_of_pc_gt hpc⟩
  · cases h : decode s.fetchWord with
    | unknown w => exact .inl ⟨_, w, instrStep_of_decode_eq_unknown hpc h⟩
    | instr i => exact .inr ⟨i, instrStep_of_decode_eq_instr hpc h⟩

theorem exists_instrStep_eq_next (s : State) : ∃ t, instrStep s = .next t := by
  rcases instrStep_cases s with ⟨c, w, hnext⟩ | ⟨i, hexec⟩
  · exact ⟨_, hnext⟩
  · rw [hexec]
    exact everyInstructionAnswersANextState i s

theorem exists_runEvent_eq_next (e : Event) (s : State) : ∃ t, runEvent e s = .next t := by
  cases e
  case instrTick =>
    by_cases hs : s.fault = none
    · rw [runEvent_instrTick hs]
      exact exists_instrStep_eq_next s
    · exact ⟨s, runEvent_instrTick_of_halted hs⟩
  case timerTick | keyDown | keyUp | displayRead | stateRead | stateRestore | reset => exact ⟨_, rfl⟩

/-! ### The statements -/

/-- Settles O6: both ways to an instruction step, and the instruction it decodes. -/
theorem stepRunsTheDecodedInstruction : Obligations.StepRunsTheDecodedInstruction := by
  intro s i hs hpc hdecode
  refine ⟨fun hnil => ?_, fun rest htick => ?_⟩
  · exact step_eq_exec hs hnil hpc hdecode
  · rw [step_of_schedule_eq_instrTick htick hs]
    exact instrStep_of_decode_eq_instr hpc hdecode

/-- Settles O7: both ways to an instruction step, and the two faults of its fetch. -/
theorem fetchFaultsRecordTheirCause : Obligations.FetchFaultsRecordTheirCause := by
  refine fun s hs => ⟨fun hpc => ⟨fun hnil => ?_, fun rest htick => ?_⟩, fun w hpc hw hunknown => ?_⟩
  · rw [step_of_schedule_eq_nil hnil hs]
    exact instrStep_of_pc_gt hpc
  · rw [step_of_schedule_eq_instrTick htick hs]
    exact instrStep_of_pc_gt hpc
  · have hdecode : decode s.fetchWord = .unknown w := (congrArg decode hw).trans hunknown
    refine ⟨fun hnil => ?_, fun rest htick => ?_⟩
    · rw [step_of_schedule_eq_nil hnil hs]
      exact instrStep_of_decode_eq_unknown hpc hdecode
    · rw [step_of_schedule_eq_instrTick htick hs]
      exact instrStep_of_decode_eq_unknown hpc hdecode

/-- Settles O8: a tick of a halted machine is dropped, and a key event does not look at the record. -/
theorem haltedMachineTakesNoStep : Obligations.HaltedMachineTakesNoStep := by
  refine fun s rest hs => ⟨fun hnil => step_of_halted hnil hs, fun htick => ?_, fun htick => ?_, fun k hkey => ?_⟩
  · exact (step_of_schedule_eq_cons htick).trans (runEvent_instrTick_of_halted hs)
  · exact (step_of_schedule_eq_cons htick).trans (runEvent_timerTick_of_halted hs)
  · exact ⟨_, step_of_schedule_eq_cons hkey, (State.keyHeld_setKey _ k k true).trans (if_pos rfl), rfl⟩

/-- Settles O9: every instruction step and every event answers a next state. -/
theorem stepStopsOnlyWhenHalted : Obligations.StepStopsOnlyWhenHalted := by
  intro s
  cases hschedule : s.schedule with
  | nil =>
    by_cases hs : s.fault = none
    · rw [step_of_schedule_eq_nil hschedule hs]
      exact .inl (exists_instrStep_eq_next _)
    · exact .inr ⟨hs, rfl, step_of_halted hschedule hs⟩
  | cons e rest =>
    rw [step_of_schedule_eq_cons hschedule]
    exact .inl (exists_runEvent_eq_next e _)

theorem run_succ_of_step {M : Host.Core} {s t : M.State} (h : M.step s = .next t) (k : Nat) :
    M.run (k + 1) s = M.run k t := by
  rw [Host.Core.run, h]

/-- Settles O37: one step at the wait answers the state itself, so any number of steps does. -/
theorem keyWaitRepeatsUntilAKey : Obligations.KeyWaitRepeatsUntilAKey := by
  intro k x s hs hnil hsignal hpc hdecode hkeys
  have hstep : step s = .next s := by
    rw [step_eq_exec hs hnil hpc hdecode, State.clear_signal_of_eq_none hsignal]
    exact exec_ldVxK_of_lowestKey_eq_none (State.lowestKey_eq_none_iff.2 hkeys) x
  induction k with
  | zero => rfl
  | succ k ih => exact (run_succ_of_step (M := Sys2Proof.core) hstep k).trans ih

/-- A jump to `a` is the word `0x1000 + a` for every address of 12 bits. -/
theorem jp_word_eq {a : Word} (ha : a.toNat ≤ 4094) : 0x1000 + a = (0x1 : Nibble) ++ a.setWidth 12 := by
  have hlow : a.toNat < 2 ^ 12 := by omega
  have hsum : (0x1000 + a).toNat = 0x1000 + a.toNat := by bv_omega
  have hword : ((0x1 : Nibble) ++ a.setWidth 12).toNat = 1 <<< 12 + a.toNat := by
    rw [BitVec.toNat_append, BitVec.toNat_setWidth, Nat.mod_eq_of_lt hlow, Nat.shiftLeft_add_eq_or_of_lt hlow]
    rfl
  exact BitVec.eq_of_toNat_eq (hsum.trans hword.symm)

/-- Settles O54: the word at `pc` is the jump to `pc`. -/
theorem endedRunStaysAtItsJump : Obligations.EndedRunStaysAtItsJump := by
  rintro s ⟨hs, hpc, hfetch⟩ hnil
  have hdecode : decode s.fetchWord = .instr (.jp (s.pc.setWidth 12)) := by
    rw [hfetch, jp_word_eq hpc, decode_jp]
  have htarget : absTarget (s.pc.setWidth 12) = s.pc := by
    apply BitVec.eq_of_toNat_eq
    rw [absTarget_toNat, BitVec.toNat_setWidth, Nat.mod_eq_of_lt (by omega)]
  rw [step_eq_exec hs hnil hpc hdecode, exec_jp, htarget]
  rfl

end Sys2Proof.Machine
end

section
/-!
Stores and loads (42_index_memory.md R123 to R125): the range check, the bytes a store leaves and the registers a load
leaves, and the two together.
-/

namespace Sys2Proof.Machine

variable {s : State}

/-! ### Several bytes written at once -/

theorem State.readByte_writeBytes_getElem {a i : Nat} {bs : List Byte} (hi : i < bs.length) (ha : a + i ≤ 4095) :
    (s.writeBytes a bs).readByte (a + i) = bs[i] := by
  rw [State.readByte_writeBytes, dif_pos ⟨by omega, by omega, by simp only [memSize]; omega⟩]
  simp

theorem State.readByte_writeBytes_outside {a a' : Nat} {bs : List Byte} (h : a' < a ∨ a + bs.length ≤ a') :
    (s.writeBytes a bs).readByte a' = s.readByte a' := by
  rw [State.readByte_writeBytes, dif_neg (by omega)]

/-! ### The range check -/

theorem State.beyondMemory_succ (k : Nat) : s.beyondMemory (k + 1) = true ↔ s.ea k > 4095 := by
  simp [State.beyondMemory_iff, State.ea]

theorem exec_ldB_of_gt {x : Nibble} (h : s.ea 2 > 4095) :
    exec (.ldB x) s = .next (s.faulted .memOutOfRange (encode (.ldB x))) :=
  if_pos ((State.beyondMemory_succ 2).2 h)

theorem exec_ldB_of_le {x : Nibble} (h : s.ea 2 ≤ 4095) :
    exec (.ldB x) s = .next (s.advance.writeBytes (s.ea 0) (bcdDigits (s.reg x))) :=
  if_neg (by rw [State.beyondMemory_succ]; omega)

theorem exec_ldMemVx_of_gt {x : Nibble} (h : s.ea x.toNat > 4095) :
    exec (.ldMemVx x) s = .next (s.faulted .memOutOfRange (encode (.ldMemVx x))) :=
  if_pos ((State.beyondMemory_succ x.toNat).2 h)

theorem exec_ldMemVx_of_le {x : Nibble} (h : s.ea x.toNat ≤ 4095) :
    exec (.ldMemVx x) s = .next (s.advance.writeBytes (s.ea 0) (s.lowRegs (x.toNat + 1))) :=
  if_neg (by rw [State.beyondMemory_succ]; omega)

theorem exec_ldVxMem_of_gt {x : Nibble} (h : s.ea x.toNat > 4095) :
    exec (.ldVxMem x) s = .next (s.faulted .memOutOfRange (encode (.ldVxMem x))) :=
  if_pos ((State.beyondMemory_succ x.toNat).2 h)

theorem exec_ldVxMem_of_le {x : Nibble} (h : s.ea x.toNat ≤ 4095) :
    exec (.ldVxMem x) s = .next (s.advance.loadRegs (s.ea 0) (x.toNat + 1)) :=
  if_neg (by rw [State.beyondMemory_succ]; omega)

/-! ### The statements -/

/-- Settles O26: three bytes written in one piece, each a quotient of the register's value. -/
theorem ldBStoresTheDecimalDigits : Obligations.LdBStoresTheDecimalDigits := by
  refine fun x s => ⟨decode_familyF x 0x33, exec_ldB_of_gt, fun hle => ⟨_, exec_ldB_of_le hle, ?_⟩⟩
  have hdigit {i : Nat} (hi : i < 3) : (s.advance.writeBytes (s.ea 0) (bcdDigits (s.reg x))).readByte (s.ea i) =
      (bcdDigits (s.reg x))[i] :=
    State.readByte_writeBytes_getElem (a := s.ea 0) hi (by simp only [State.ea] at hle ⊢; omega)
  refine ⟨?_, ?_, ?_, fun a ha => State.readByte_writeBytes_outside ?_, rfl, frameBut_advance_writeBytes _ _⟩
  · rw [hdigit (i := 0) (by omega)]
    simp [bcdDigits]
  · rw [hdigit (i := 1) (by omega)]
    simp [bcdDigits]
  · rw [hdigit (i := 2) (by omega)]
    simp [bcdDigits]
  · simp only [State.ea, bcdDigits, List.length_cons, List.length_nil] at ha ⊢
    omega

/-- Settles O27: the registers up to `x` written in one piece. -/
theorem storeRegistersWritesV0ToVx : Obligations.StoreRegistersWritesV0ToVx := by
  refine fun x s => ⟨decode_familyF x 0x55, exec_ldMemVx_of_gt, fun hle =>
    ⟨_, exec_ldMemVx_of_le hle, fun r hr => ?_, fun a ha => ?_, rfl, frameBut_advance_writeBytes _ _⟩⟩
  · have hlow : r.toNat < (s.lowRegs (x.toNat + 1)).length := by rw [State.lowRegs_length]; omega
    refine (State.readByte_writeBytes_getElem (a := s.ea 0) hlow ?_).trans ?_
    · simp only [State.ea] at hle ⊢; omega
    · rw [State.lowRegs_getElem, BitVec.ofNat_toNat, BitVec.setWidth_eq]
  · refine State.readByte_writeBytes_outside ?_
    rw [State.lowRegs_length]
    simp only [State.ea] at ha ⊢
    omega

/-- Settles O28: each register up to `x` is its byte, the others are as they were. -/
theorem loadRegistersReadsV0ToVx : Obligations.LoadRegistersReadsV0ToVx := by
  refine fun x s => ⟨decode_familyF x 0x65, exec_ldVxMem_of_gt, fun hle =>
    ⟨_, exec_ldVxMem_of_le hle, fun r hr => ?_, fun r hr => ?_, State.loadRegs_pc .., frameBut_advance_loadRegs _ _⟩⟩
  · rw [State.reg_loadRegs _ _ _ (by omega), if_pos (by omega)]
    rfl
  · rw [State.reg_loadRegs _ _ _ (by omega), if_neg (by omega)]
    rfl

/-- Settles O29: the load reads where the store wrote, as neither changes `I`. -/
theorem blockLoadUndoesBlockStore : Obligations.BlockLoadUndoesBlockStore := by
  intro x s t V hle hstore
  obtain ⟨-, -, hstores⟩ := storeRegistersWritesV0ToVx x s
  obtain ⟨_, hnext, hbytes, -, -, hframe⟩ := hstores hle
  cases hstore.symm.trans hnext
  have hea (k : Nat) : ({ t with V := V } : State).ea k = s.ea k := by
    rw [State.ea, State.ea, hframe .index (by simp)]
  obtain ⟨-, -, hloads⟩ := loadRegistersReadsV0ToVx x { t with V := V }
  obtain ⟨u, hload, hregs, -⟩ := hloads (by rwa [hea])
  refine ⟨u, hload, fun r hr => ?_⟩
  rw [hregs r hr, hea]
  exact hbytes r hr

/-- Settles O30: the store leaves its two first bytes at the new `pc`, and there is no pulse to end. -/
theorem storedWordIsFetchedNext : Obligations.StoredWordIsFetchedNext := by
  intro s x i hs hnil hpc hdecode hx hI hle hword
  obtain ⟨-, -, hstores⟩ := storeRegistersWritesV0ToVx x { s with signal := none }
  obtain ⟨t, hstore, hbytes, -, (htpc : t.pc = s.pc + 2), hframe⟩ := hstores hle
  have hstep : step s = .next t := (step_eq_exec hs hnil (by omega) hdecode).trans hstore
  have htpc2 : t.pc.toNat = s.pc.toNat + 2 := by
    rw [htpc]
    exact toNat_add_two (by omega)
  have hIpc : s.I.toNat = t.pc.toNat := by rw [hI, htpc]
  have hhi : t.readByte t.pc.toNat = s.reg 0 := by
    rw [← hIpc]
    exact hbytes 0 (Nat.zero_le _)
  have hlo : t.readByte (t.pc.toNat + 1) = s.reg 1 := by
    rw [← hIpc]
    exact hbytes 1 hx
  have hfetch : decode t.fetchWord = .instr i := by
    rw [State.fetchWord, hhi, hlo]
    exact hword
  have htf : t.fault = none := Eq.trans (hframe .fault (by simp)) hs
  have htnil : t.schedule = [] := Eq.trans (hframe .schedule (by simp)) hnil
  have htsignal : t.signal = none := hframe .signal (by simp)
  refine ⟨t, hstep, htpc, ?_⟩
  rw [step_eq_exec htf htnil (by omega) hfetch, State.clear_signal_of_eq_none htsignal]

end Sys2Proof.Machine
end

section
/-!
Drawing a sprite (43_display.md R131, R132): which cells a pixel, a row and a sprite turn over, and the collision they
report. The pixels of one sprite lie on different cells, so each cell is turned over at most once and a collision is
one with the display as it was before the draw.
-/

namespace Sys2Proof.Machine

/-! ### Parts of a drawing -/

/-- From `p` to `q` the cells in `on` are turned over, no other, and a collision is noted if one of them was lit. -/
structure Drawn (on : Nat → Prop) (p q : Canvas) : Prop where
  turned : ∀ j, on j → q.1.contains j = !p.1.contains j
  kept : ∀ j, ¬ on j → q.1.contains j = p.1.contains j
  hit : q.2 = true ↔ p.2 = true ∨ ∃ j, on j ∧ p.1.contains j = true

theorem Drawn.refl {on : Nat → Prop} (hon : ∀ j, ¬ on j) (p : Canvas) : Drawn on p p where
  turned j hj := absurd hj (hon j)
  kept _ _ := rfl
  hit := by simp [hon]

/-- Two drawings on different cells, one after the other. -/
theorem Drawn.comp {on on' both : Nat → Prop} {p q r : Canvas} (hpq : Drawn on p q) (hqr : Drawn on' q r)
    (hdisjoint : ∀ j, on j → ¬ on' j) (hboth : ∀ j, both j ↔ on j ∨ on' j) : Drawn both p r where
  turned j hj := by
    rcases (hboth j).1 hj with hon | hon'
    · rw [hqr.kept j (hdisjoint j hon), hpq.turned j hon]
    · rw [hqr.turned j hon', hpq.kept j fun hon => hdisjoint j hon hon']
  kept j hj := by
    have hnot := not_or.1 (mt (hboth j).2 hj)
    rw [hqr.kept j hnot.2, hpq.kept j hnot.1]
  hit := by
    have hsame : (∃ j, on' j ∧ q.1.contains j = true) ↔ ∃ j, on' j ∧ p.1.contains j = true :=
      exists_congr fun j => and_congr_right fun hon' => by rw [hpq.kept j fun hon => hdisjoint j hon hon']
    rw [hqr.hit, hpq.hit, hsame]
    simp only [hboth, or_and_right, exists_or, or_assoc]

/-- A pixel whose bit is `bit`, at `(cx, cy)`, is a 1 bit on cell `j` of the screen. -/
def pixelOn (bit : Bool) (cx cy j : Nat) : Prop := bit = true ∧ cx ≤ 63 ∧ cy ≤ 31 ∧ j = cx + 64 * cy

/-- One of the columns 0 to `k - 1` of a sprite row `b` at `(x0, cy)` is a 1 bit on cell `j`. -/
def rowOn (b : Byte) (x0 cy k j : Nat) : Prop := ∃ c < k, pixelOn (b.getLsbD (7 - c)) (x0 + c) cy j

theorem drawPixel_drawn (bit : Bool) (cx cy : Nat) (p : Canvas) :
    Drawn (pixelOn bit cx cy) p (drawPixel bit cx cy p) := by
  by_cases hon : bit = true ∧ cx ≤ 63 ∧ cy ≤ 31
  · have hcell (j : Nat) : pixelOn bit cx cy j ↔ j = cx + 64 * cy :=
      ⟨fun ⟨_, _, _, hj⟩ => hj, fun hj => ⟨hon.1, hon.2.1, hon.2.2, hj⟩⟩
    rw [drawPixel, if_pos hon]
    refine ⟨fun j hj => ?_, fun j hj => ?_, ?_⟩
    · exact (Disp.contains_toggle ..).trans (by rw [decide_eq_true ((hcell j).1 hj), Bool.xor_true])
    · exact (Disp.contains_toggle ..).trans (by rw [decide_eq_false (mt (hcell j).2 hj), Bool.xor_false])
    · simp [hcell]
  · rw [drawPixel, if_neg hon]
    exact .refl (fun j ⟨hbit, hx, hy, _⟩ => hon ⟨hbit, hx, hy⟩) p

theorem drawColumns_drawn (b : Byte) (x0 cy k : Nat) (p : Canvas) :
    Drawn (rowOn b x0 cy k) p (drawColumns b x0 cy k p) := by
  induction k with
  | zero => exact .refl (by simp [rowOn]) p
  | succ k ih =>
    refine ih.comp (drawPixel_drawn _ _ _ _) ?_ fun j => Nat.exists_lt_succ_right
    rintro j ⟨c, hc, -, -, -, hj⟩ ⟨-, -, -, hj'⟩
    omega

/-- The sprite of a draw, row by row. -/
theorem State.spriteOn_iff (s : State) (x0 y0 n j : Nat) :
    s.spriteOn x0 y0 n j ↔ ∃ r < n, rowOn (s.readByte (s.I.toNat + r)) x0 (y0 + r) 8 j := by
  constructor
  · rintro ⟨r, c, hr, hc, hbit, hx, hy, hj⟩
    exact ⟨r, hr, c, hc, hbit, hx, hy, hj⟩
  · rintro ⟨r, hr, c, hc, hbit, hx, hy, hj⟩
    exact ⟨r, c, hr, hc, hbit, hx, hy, hj⟩

theorem State.drawRows_drawn (s : State) (x0 y0 n : Nat) :
    Drawn (s.spriteOn x0 y0 n) (s.disp, false) (s.drawRows x0 y0 n) := by
  induction n with
  | zero => exact .refl (by simp [State.spriteOn]) _
  | succ n ih =>
    refine ih.comp (drawColumns_drawn _ _ _ _ _) ?_ fun j => ?_
    · rintro j ⟨r, c, hr, -, -, hx, -, hj⟩ ⟨c', -, -, hx', -, hj'⟩
      omega
    · rw [State.spriteOn_iff, State.spriteOn_iff]
      exact Nat.exists_lt_succ_right

/-! ### Cells -/

section

variable {s t : State} {j : Nat}

theorem State.cell_eq_lit_iff : s.cell j = 0xFF ↔ s.disp.contains j = true := by
  unfold State.cell State.isLit
  cases s.disp.contains j <;> simp

theorem State.cell_eq_dark_iff : s.cell j = 0x00 ↔ s.disp.contains j = false := by
  unfold State.cell State.isLit
  cases s.disp.contains j <;> simp

theorem State.cell_eq_of_contains_eq (h : t.disp.contains j = s.disp.contains j) : t.cell j = s.cell j := by
  rw [State.cell, State.isLit, h]
  rfl

theorem State.cell_eq_xor_of_contains_eq_not (h : t.disp.contains j = !s.disp.contains j) :
    t.cell j = s.cell j ^^^ 0xFF := by
  unfold State.cell State.isLit
  rw [h]
  cases s.disp.contains j <;> rfl

end

/-! ### The instruction -/

variable {s : State} {x y n : Nibble}

theorem exec_drw_of_beyond (h : n.toNat > 0 ∧ s.ea (n.toNat - 1) > 4095) :
    exec (.drw x y n) s = .next (s.faulted .memOutOfRange (encode (.drw x y n))) :=
  if_pos ((s.beyondMemory_iff n.toNat).2 h)

theorem exec_drw_of_inside (h : n.toNat = 0 ∨ s.ea (n.toNat - 1) ≤ 4095) :
    exec (.drw x y n) s =
      let p := s.drawRows (s.originX x) (s.originY y) n.toNat
      .next ((s.advance.setDisp p.1).setReg VF (flagByte p.2)) :=
  if_neg fun hbeyond => by
    have hrange := (s.beyondMemory_iff n.toNat).1 hbeyond
    simp only [State.ea] at h
    omega

/-- Settles O32: the two cases of the range, and the cells and the collision of the whole sprite. -/
theorem drwXorsTheSprite : Obligations.DrwXorsTheSprite := by
  refine fun x y n s => ⟨decode_drw x y n, fun hn hea => exec_drw_of_beyond ⟨hn, hea⟩, fun hin =>
    ⟨_, exec_drw_of_inside hin, fun j hj => ?_, fun j hj => ?_, ?_, fun hdark => ?_, regsBut_setReg VF _, rfl,
      frameBut_advance_setDisp_setReg _ VF _⟩⟩
  all_goals have hdrawn := s.drawRows_drawn (s.originX x) (s.originY y) n.toNat
  · exact State.cell_eq_xor_of_contains_eq_not (hdrawn.turned j hj)
  · exact State.cell_eq_of_contains_eq (hdrawn.kept j hj)
  · rintro ⟨j, hj, hlit⟩
    rw [State.reg_setReg_same, hdrawn.hit.2 (.inr ⟨j, hj, State.cell_eq_lit_iff.1 hlit⟩)]
    rfl
  · have hmiss : ¬ (s.drawRows (s.originX x) (s.originY y) n.toNat).2 = true := by
      rw [hdrawn.hit]
      rintro (hfalse | ⟨j, hj, hlit⟩)
      · exact Bool.false_ne_true hfalse
      · exact Bool.false_ne_true ((State.cell_eq_dark_iff.1 (hdark j hj)).symm.trans hlit)
    rw [State.reg_setReg_same, Bool.eq_false_iff.2 hmiss]
    rfl

theorem State.spriteOn_congr {t : State} (hI : t.I = s.I) (hmem : ∀ a, t.readByte a = s.readByte a)
    (x0 y0 k j : Nat) : t.spriteOn x0 y0 k j ↔ s.spriteOn x0 y0 k j := by
  simp only [State.spriteOn, hI, hmem]

theorem State.cell_lit_or_dark (s : State) (j : Nat) : s.cell j = 0xFF ∨ s.cell j = 0x00 := by
  rw [State.cell_eq_lit_iff, State.cell_eq_dark_iff]
  exact Bool.eq_false_or_eq_true _

/-- Settles O33: the second draw is of the same sprite at the same place, and a cell under a 1 bit is lit before the
first draw or before the second. -/
theorem drawingTwiceRestoresTheDisplay : Obligations.DrawingTwiceRestoresTheDisplay := by
  intro x y n s hx hy hin
  obtain ⟨-, -, hdraw⟩ := drwXorsTheSprite x y n s
  obtain ⟨t, hnext, hon, hoff, hlit, hdark, hregs, -, hframe⟩ := hdraw hin
  have hregx : t.reg x = s.reg x := hregs x (by simpa using hx)
  have hregy : t.reg y = s.reg y := hregs y (by simpa using hy)
  have hI : t.I = s.I := hframe .index (by simp)
  have hmem : ∀ a, t.readByte a = s.readByte a := hframe .memory (by simp)
  obtain ⟨-, -, hdraw'⟩ := drwXorsTheSprite x y n t
  simp only [hregx, hregy, State.spriteOn_congr hI hmem, State.ea, hI] at hdraw'
  obtain ⟨u, hnext', hon', hoff', hlit', hdark', -⟩ := hdraw' hin
  refine ⟨t, u, hnext, hnext', fun j => ?_, fun hflag => ?_, fun ⟨j, hj⟩ => ?_⟩
  · by_cases hj : s.spriteOn ((s.reg x).toNat % 64) ((s.reg y).toNat % 32) n.toNat j
    · rw [hon' j hj, hon j hj, BitVec.xor_assoc, BitVec.xor_self, BitVec.xor_zero]
    · rw [hoff' j hj, hoff j hj]
  · by_contra hnone
    have hzero : ¬ (t.reg VF = 1 ∨ u.reg VF = 1) := by
      rw [hdark fun j hj => absurd ⟨j, hj⟩ hnone, hdark' fun j hj => absurd ⟨j, hj⟩ hnone]
      decide
    exact hzero hflag
  · rcases s.cell_lit_or_dark j with hcell | hcell
    · exact .inl (hlit ⟨j, hj, hcell⟩)
    · refine .inr (hlit' ⟨j, hj, ?_⟩)
      rw [hon j hj, hcell]
      rfl

end Sys2Proof.Machine
end

section
/-!
Noninterference of the key flags (10_state.md section 7): an instruction that reads no key does the same whatever keys
are down.
-/

namespace Sys2Proof.Machine

variable {s : State} {key : Vector Bool 16}

/-- The state with other key flags. -/
def State.withKeys (s : State) (key : Vector Bool 16) : State := { s with key := key }

/-- `i` answers the same state from `s` and from `s` with other keys, but for those keys. -/
def IgnoresKeys (i : Instr) (s : State) (key : Vector Bool 16) : Prop :=
  ∃ t, exec i s = .next t ∧ exec i (s.withKeys key) = .next (t.withKeys key)

theorem State.lowRegs_withKeys (k : Nat) : (s.withKeys key).lowRegs k = s.lowRegs k := by
  induction k with
  | zero => rfl
  | succ k ih =>
    rw [State.lowRegs, ih]
    rfl

theorem State.loadRegs_withKeys (a k : Nat) : (s.withKeys key).loadRegs a k = (s.loadRegs a k).withKeys key := by
  induction k with
  | zero => rfl
  | succ k ih =>
    rw [State.loadRegs, ih]
    rfl

theorem State.drawRows_withKeys (x0 y0 k : Nat) : (s.withKeys key).drawRows x0 y0 k = s.drawRows x0 y0 k := by
  induction k with
  | zero => rfl
  | succ k ih =>
    rw [State.drawRows, ih]
    rfl

theorem ret_ignoresKeys : IgnoresKeys .ret s key := by
  rcases List.eq_nil_or_concat' s.stack with hnil | ⟨rest, a, happend⟩
  · exact ⟨_, exec_ret_of_nil hnil, exec_ret_of_nil hnil⟩
  · exact ⟨_, exec_ret_of_append happend, exec_ret_of_append happend⟩

theorem call_ignoresKeys (nnn : Addr12) : IgnoresKeys (.call nnn) s key := by
  by_cases hfull : s.cfg.stackLimit = some s.stack.length
  · exact ⟨_, exec_call_of_full hfull, exec_call_of_full hfull⟩
  · exact ⟨_, exec_call_of_not_full hfull, exec_call_of_not_full hfull⟩

theorem drw_ignoresKeys (x y n : Nibble) : IgnoresKeys (.drw x y n) s key := by
  by_cases hin : n.toNat = 0 ∨ s.ea (n.toNat - 1) ≤ 4095
  · refine ⟨_, exec_drw_of_inside hin, (exec_drw_of_inside (s := s.withKeys key) hin).trans ?_⟩
    rw [State.drawRows_withKeys]
    rfl
  · have hout : n.toNat > 0 ∧ s.ea (n.toNat - 1) > 4095 := by omega
    exact ⟨_, exec_drw_of_beyond hout, exec_drw_of_beyond hout⟩

theorem ldB_ignoresKeys (x : Nibble) : IgnoresKeys (.ldB x) s key := by
  rcases Nat.lt_or_ge 4095 (s.ea 2) with hgt | hle
  · exact ⟨_, exec_ldB_of_gt hgt, exec_ldB_of_gt hgt⟩
  · exact ⟨_, exec_ldB_of_le hle, exec_ldB_of_le hle⟩

theorem ldMemVx_ignoresKeys (x : Nibble) : IgnoresKeys (.ldMemVx x) s key := by
  rcases Nat.lt_or_ge 4095 (s.ea x.toNat) with hgt | hle
  · exact ⟨_, exec_ldMemVx_of_gt hgt, exec_ldMemVx_of_gt hgt⟩
  · refine ⟨_, exec_ldMemVx_of_le hle, (exec_ldMemVx_of_le (s := s.withKeys key) hle).trans ?_⟩
    rw [State.lowRegs_withKeys]
    rfl

theorem ldVxMem_ignoresKeys (x : Nibble) : IgnoresKeys (.ldVxMem x) s key := by
  rcases Nat.lt_or_ge 4095 (s.ea x.toNat) with hgt | hle
  · exact ⟨_, exec_ldVxMem_of_gt hgt, exec_ldVxMem_of_gt hgt⟩
  · exact ⟨_, exec_ldVxMem_of_le hle, (exec_ldVxMem_of_le (s := s.withKeys key) hle).trans
      (congrArg Host.Outcome.next (State.loadRegs_withKeys (s := s.advance) _ _))⟩

theorem exec_ignoresKeys {i : Instr} (hi : instrReadsKeys i = false) : IgnoresKeys i s key := by
  cases i
  case skp | sknp | ldVxK => exact absurd hi (by simp [instrReadsKeys])
  case ret => exact ret_ignoresKeys
  case call nnn => exact call_ignoresKeys nnn
  case seImm x kk => exact ⟨_, exec_seImm x kk, exec_seImm x kk⟩
  case sneImm x kk => exact ⟨_, exec_sneImm x kk, exec_sneImm x kk⟩
  case seReg x y => exact ⟨_, exec_seReg x y, exec_seReg x y⟩
  case sneReg x y => exact ⟨_, exec_sneReg x y, exec_sneReg x y⟩
  case drw x y n => exact drw_ignoresKeys x y n
  case ldB x => exact ldB_ignoresKeys x
  case ldMemVx x => exact ldMemVx_ignoresKeys x
  case ldVxMem x => exact ldVxMem_ignoresKeys x
  -- The others answer one next state on every path.
  case cls | jp | jpV0 | ldImm | addImm | ldReg | orReg | andReg | xorReg | addReg | subReg | shr | subnReg | shl
    | rnd | ldVxDt | ldDtVx | ldStVx | ldI | addI | ldF =>
    exact ⟨_, rfl, rfl⟩

/-- Settles O42: the state answered is the one the instruction answers with any keys. -/
theorem keysMatterOnlyToKeyInstructions : Obligations.KeysMatterOnlyToKeyInstructions := by
  intro i s t key hi hexec
  obtain ⟨_, hnext, hother⟩ := exec_ignoresKeys (s := s) (key := key) hi
  cases hexec.symm.trans hnext
  exact hother

end Sys2Proof.Machine
end

section
/-!
The timer engine and the host's steps (60_exceptions.md sections 4 to 6, 70_reset_and_hazards.md section 1), one
statement each.
-/

namespace Sys2Proof.Machine

variable {s : State}

/-! ### Frames of the agents' writes -/

theorem frameBut_signal_schedule (g : Option Signal) (rest : List Event) :
    FrameBut [.signal, .schedule] s { s with signal := g, schedule := rest } := by
  intro p hp
  cases p
  case signal | schedule => exact absurd hp (by simp)
  case regs | keys | display | memory => exact fun _ => rfl
  case pc | index | stack | delay | sound | playing | fault | draws | config => rfl

theorem frameBut_playing (b : Bool) : FrameBut [.playing] s { s with soundPlaying := b } := by
  intro p hp
  cases p
  case playing => exact absurd hp (by simp)
  case regs | keys | display | memory => exact fun _ => rfl
  case pc | index | stack | delay | sound | fault | draws | config | schedule | signal => rfl

theorem frameBut_setKey (k : Nibble) (b : Bool) : FrameBut [.keys] s (s.setKey k b) := by
  intro p hp
  cases p
  case keys => exact absurd hp (by simp)
  case regs | display | memory => exact fun _ => rfl
  case pc | index | stack | delay | sound | playing | fault | draws | config | schedule | signal => rfl

/-! ### The timer tick -/

theorem tickDown_toNat (v : Byte) : (tickDown v).toNat = v.toNat - 1 := by
  unfold tickDown
  split <;> bv_omega

/-- The edge between two values of `soundPlaying` (60_exceptions.md R159). -/
def edgeSignal : Bool → Bool → Option Signal
  | false, true => some .soundStart
  | true, false => some .soundStop
  | false, false | true, true => none

theorem edgeSignal_self (b : Bool) : edgeSignal b b = none := by cases b <;> rfl

/-- After the edges the sound plays exactly if `ST` is above 0, and the pulse is the edge between before and after. -/
theorem soundEdges_eq (h : s.signal = none) :
    soundEdges s = { s with
      soundPlaying := decide (s.ST.toNat > 0), signal := edgeSignal s.soundPlaying (decide (s.ST.toNat > 0)) } := by
  have hzero : s.ST = 0 ↔ ¬ s.ST.toNat > 0 := by bv_omega
  unfold soundEdges
  split_ifs with hstart hstop
  · obtain ⟨hST, hplaying⟩ := hstart
    rw [decide_eq_true hST, hplaying]
    rfl
  · obtain ⟨hST, hplaying⟩ := hstop
    rw [decide_eq_false (hzero.1 hST), hplaying]
    rfl
  · have hsame : decide (s.ST.toNat > 0) = s.soundPlaying := by
      cases hplaying : s.soundPlaying
      · exact decide_eq_false fun hST => hstart ⟨hST, hplaying⟩
      · exact decide_eq_true (not_not.1 (mt hzero.2 fun hST => hstop ⟨hST, hplaying⟩))
    rw [hsame, edgeSignal_self, ← h]

theorem runEvent_timerTick (hs : s.fault = none) (h : s.signal = none) :
    runEvent .timerTick s = .next { s with
      DT := tickDown s.DT
      ST := tickDown s.ST
      soundPlaying := decide ((tickDown s.ST).toNat > 0)
      signal := edgeSignal s.soundPlaying (decide ((tickDown s.ST).toNat > 0)) } :=
  congrArg Host.Outcome.next ((if_neg (State.not_halted hs)).trans (soundEdges_eq h))

/-- Settles O43: the timers after the tick decide whether the sound plays, and the edge is the change in that. -/
theorem timerTickCountsDownAndDrivesEdges : Obligations.TimerTickCountsDownAndDrivesEdges := by
  intro s rest hs htick
  have hframe (d v : Byte) (b : Bool) (g : Option Signal) :
      FrameBut [.delay, .sound, .playing, .signal, .schedule] s
        { s with DT := d, ST := v, soundPlaying := b, signal := g, schedule := rest } :=
    (((frameBut_signal_schedule g rest).mono (by simp)).trans ((frameBut_playing b).mono (by simp))
      |>.setDT (by simp) d).setST (by simp) v
  have hplaying : decide ((tickDown s.ST).toNat > 0) = decide (s.ST.toNat ≥ 2) := by
    rw [tickDown_toNat]
    exact decide_eq_decide.2 (by omega)
  have hnext := (step_of_schedule_eq_cons htick).trans (runEvent_timerTick hs rfl)
  refine ⟨_, hnext, tickDown_toNat s.DT, tickDown_toNat s.ST, ?_, ?_, ?_, ?_, rfl, hframe _ _ _ _⟩ <;>
    intro hST hwas <;> simp only [hplaying, hwas]
  · rw [decide_eq_true hST]
    exact ⟨rfl, rfl⟩
  · rw [decide_eq_false (by omega)]
    exact ⟨rfl, rfl⟩
  · rw [decide_eq_true hST]
    exact ⟨rfl, rfl⟩
  · rw [decide_eq_false (by omega)]
    exact ⟨rfl, rfl⟩

/-! ### Keys and reads -/

/-- Both key events set one flag. -/
theorem exists_next_of_eq_setKey {k : Nibble} {b : Bool} {rest : List Event} {o : Out}
    (h : o = .next (State.setKey { s with signal := none, schedule := rest } k b)) :
    ∃ t, o = .next t ∧ t.keyHeld k = b ∧ (∀ m, m ≠ k → t.keyHeld m = s.keyHeld m) ∧ t.schedule = rest ∧
      FrameBut [.keys, .schedule, .signal] s t := by
  refine ⟨_, h, (State.keyHeld_setKey ..).trans (if_pos rfl), fun _ hm => ?_, rfl, ?_⟩
  · exact (State.keyHeld_setKey ..).trans (if_neg hm)
  · exact ((frameBut_signal_schedule _ _).append (frameBut_setKey k b)).mono (by simp)

/-- Settles O45: each event is one write of its flag. -/
theorem keyEventsSetOneFlag : Obligations.KeyEventsSetOneFlag := fun _ _ _ =>
  ⟨fun h => exists_next_of_eq_setKey (step_of_schedule_eq_cons h),
    fun h => exists_next_of_eq_setKey (step_of_schedule_eq_cons h)⟩

/-- Settles O46: the reads answer the state, and the display port is the cells in order. -/
theorem hostReadsChangeNothing : Obligations.HostReadsChangeNothing := by
  refine fun s rest => ⟨step_of_schedule_eq_cons, step_of_schedule_eq_cons, ?_, fun j hj => ?_, fun b hb => ?_⟩
  · rw [State.displayOut, List.length_map, List.length_range]
  · rw [State.displayOut, List.getElem?_map, List.getElem?_range hj, Option.map_some]
  · obtain ⟨j, -, rfl⟩ := List.mem_map.1 hb
    exact (s.cell_lit_or_dark j).symm

/-! ### Reset -/

theorem runEvent_reset_of_le {image : List Byte} (h : image.length ≤ 3584) :
    runEvent (.reset image) s = .next (s.loaded image) :=
  congrArg Host.Outcome.next (if_pos (decide_eq_true h))

theorem runEvent_reset_of_gt {image : List Byte} (h : image.length > 3584) :
    runEvent (.reset image) s = .next (s.emit (some .loadError)) :=
  congrArg Host.Outcome.next (if_neg (by simpa [imageFits] using h))

/-- Memory after a load: the image, and the reset contents around it. -/
theorem State.readByte_loaded {image : List Byte} (h : image.length ≤ 3584) (a : Nat) :
    (s.loaded image).readByte a =
      if 0x200 ≤ a ∧ a < 0x200 + image.length then image.getD (a - 0x200) 0 else s.cfg.resetByte a := by
  refine (Memory.read_writeBytes ..).trans ?_
  by_cases ha : 0x200 ≤ a ∧ a < 0x200 + image.length
  · rw [dif_pos ⟨ha.1, ha.2, by simp only [memSize]; omega⟩, if_pos ha, List.getD_eq_getElem]
  · rw [dif_neg (fun h => ha ⟨h.1, h.2.1⟩), if_neg ha]
    rfl

/-- Settles O47: memory as loaded, and every other piece as the reset state has it. -/
theorem resetLoadsTheImage : Obligations.ResetLoadsTheImage := by
  intro s image rest hreset hfits
  have hnext := (step_of_schedule_eq_cons hreset).trans (runEvent_reset_of_le hfits)
  exact ⟨_, hnext, fun a _ => State.readByte_loaded hfits a, rfl, fun _ => Vector.getElem_replicate _, rfl, rfl, rfl,
    rfl, fun _ => Vector.getElem_replicate _, fun _ => rfl, rfl, rfl, rfl, rfl, rfl, rfl⟩

/-- Settles O48: the refusal drives the pulse and nothing else. -/
theorem oversizedImageIsRefused : Obligations.OversizedImageIsRefused := fun _ _ _ hreset hlong =>
  (step_of_schedule_eq_cons hreset).trans (runEvent_reset_of_gt hlong)

/-- Settles O50: the reset state is written out in the model. -/
theorem resetState : Obligations.ResetState :=
  ⟨⟨rfl, rfl, rfl, rfl, rfl, rfl, rfl⟩, fun _ => Vector.getElem_replicate _, fun _ => Vector.getElem_replicate _,
    fun _ => rfl, fun _ => rfl⟩

theorem Disp.nil_wf : Disp.wf [] := by simp [Disp.wf]

/-- Settles O51: both lists of the reset state are empty. -/
theorem resetMeetsTheInvariant : Obligations.ResetMeetsTheInvariant :=
  ⟨⟨Memory.nil_wf _, Disp.nil_wf⟩, fun _ he => absurd he List.not_mem_nil⟩

end Sys2Proof.Machine
end

section
/-!
What every step of every agent keeps (10_state.md sections 1 and 11): the inputs of the machine, the canonical form of
its lists, and the order of the sound edges; and runs of steps.
-/

namespace Sys2Proof.Machine

variable {s t : State} {e : Event}

/-! ### The agent of a step -/

/-- The state an agent's step begins with: the pulse has ended and the step is off the schedule. -/
def State.begun (s : State) : State := { s with signal := none, schedule := s.schedule.tail }

/-- A step is one agent's, an instruction step where nothing is scheduled. -/
theorem step_cases (h : step s = .next t) :
    ∃ e, (e = .instrTick ∨ e ∈ s.schedule) ∧ runEvent e s.begun = .next t := by
  cases hschedule : s.schedule with
  | nil =>
    have hbegun : s.begun = { s with signal := none } := by rw [State.begun, hschedule, List.tail_nil, ← hschedule]
    refine ⟨.instrTick, .inl rfl, ?_⟩
    by_cases hs : s.fault = none
    · rw [runEvent_instrTick (s := s.begun) hs, hbegun, ← step_of_schedule_eq_nil hschedule hs]
      exact h
    · cases h.symm.trans (step_of_halted hschedule hs)
  | cons e rest =>
    refine ⟨e, .inr List.mem_cons_self, ?_⟩
    rw [State.begun, hschedule, List.tail_cons, ← step_of_schedule_eq_cons hschedule]
    exact h

/-! ### The inputs: schedule, parameters, random source -/

/-- The schedule and the parameters are as before, and no random byte is taken back. -/
structure KeepsInputs (s t : State) : Prop where
  schedule : t.schedule = s.schedule
  cfg : t.cfg = s.cfg
  draws : s.draws ≤ t.draws

theorem instrWrites_subset (i : Instr) :
    instrWrites i ⊆ [.regs, .index, .stack, .delay, .sound, .display, .memory, .draws] := by
  cases i <;> simp [instrWrites]

/-- The pieces that no instruction writes. -/
theorem keeps_of_exec {i : Instr} (h : exec i s = .next t) {p : Part}
    (hp : p ∉ [Part.pc, .fault, .regs, .index, .stack, .delay, .sound, .display, .memory, .draws]) : Keeps p s t :=
  eachPieceHasOnlyItsWriters i s t h p fun hmem =>
    hp (List.cons_subset_cons _ (List.cons_subset_cons _ (instrWrites_subset i)) hmem)

theorem draws_le_of_exec {i : Instr} (h : exec i s = .next t) : s.draws ≤ t.draws := by
  by_cases hwrites : Part.draws ∈ instrWrites i
  · cases i
    case rnd =>
      cases h
      exact Nat.le_succ s.draws
    all_goals simp [instrWrites] at hwrites
  · have hkept : t.draws = s.draws := eachPieceHasOnlyItsWriters i s t h .draws (by simpa using hwrites)
    exact hkept.ge

theorem instrStep_keepsInputs (h : instrStep s = .next t) : KeepsInputs s t := by
  rcases instrStep_cases s with ⟨c, w, hnext⟩ | ⟨i, hexec⟩
  · cases h.symm.trans hnext
    exact ⟨rfl, rfl, le_rfl⟩
  · have hnext := hexec.symm.trans h
    exact ⟨keeps_of_exec (p := .schedule) hnext (by simp), keeps_of_exec (p := .config) hnext (by simp),
      draws_le_of_exec hnext⟩

theorem instrStep_edge (h : instrStep s = .next t) : t.signal = s.signal ∧ t.soundPlaying = s.soundPlaying := by
  rcases instrStep_cases s with ⟨c, w, hnext⟩ | ⟨i, hexec⟩
  · cases h.symm.trans hnext
    exact ⟨rfl, rfl⟩
  · have hnext := hexec.symm.trans h
    exact ⟨keeps_of_exec (p := .signal) hnext (by simp), keeps_of_exec (p := .playing) hnext (by simp)⟩

/-- A scheduled instruction step is one, or is dropped. -/
theorem runEvent_instrTick_cases (h : runEvent .instrTick s = .next t) : instrStep s = .next t ∨ t = s := by
  by_cases hs : s.fault = none
  · exact .inl ((runEvent_instrTick hs).symm.trans h)
  · cases h.symm.trans (runEvent_instrTick_of_halted hs)
    exact .inr rfl

/-- A scheduled timer tick sets the timers, the flag and the pulse, or is dropped. -/
theorem runEvent_timerTick_cases (hsignal : s.signal = none) (h : runEvent .timerTick s = .next t) :
    (∃ d v b, t = { s with DT := d, ST := v, soundPlaying := b, signal := edgeSignal s.soundPlaying b }) ∨ t = s := by
  by_cases hs : s.fault = none
  · cases h.symm.trans (runEvent_timerTick hs hsignal)
    exact .inl ⟨_, _, _, rfl⟩
  · cases h.symm.trans (runEvent_timerTick_of_halted hs)
    exact .inr rfl

/-- A scheduled reset loads its image, or reports it. -/
theorem runEvent_reset_cases {image : List Byte} (h : runEvent (.reset image) s = .next t) :
    t = s.loaded image ∨ t = s.emit (some .loadError) := by
  rcases Nat.lt_or_ge 3584 image.length with hlong | hfits
  · cases h.symm.trans (runEvent_reset_of_gt hlong)
    exact .inr rfl
  · cases h.symm.trans (runEvent_reset_of_le hfits)
    exact .inl rfl

theorem runEvent_keepsInputs (hsignal : s.signal = none) (h : runEvent e s = .next t) : KeepsInputs s t := by
  cases e
  case instrTick =>
    rcases runEvent_instrTick_cases h with hinstr | rfl
    · exact instrStep_keepsInputs hinstr
    · exact ⟨rfl, rfl, le_rfl⟩
  case timerTick =>
    rcases runEvent_timerTick_cases hsignal h with ⟨_, _, _, rfl⟩ | rfl <;> exact ⟨rfl, rfl, le_rfl⟩
  case reset => rcases runEvent_reset_cases h with rfl | rfl <;> exact ⟨rfl, rfl, le_rfl⟩
  case keyDown | keyUp | displayRead | stateRead | stateRestore =>
    cases h
    exact ⟨rfl, rfl, le_rfl⟩

/-- Settles O53: the agent's step begins with the inputs of the state. -/
theorem everyStepKeepsTheParameters : Obligations.EveryStepKeepsTheParameters := by
  intro s t h
  obtain ⟨e, -, hevent⟩ := step_cases h
  obtain ⟨-, hcfg, hdraws⟩ := runEvent_keepsInputs (s := s.begun) rfl hevent
  exact ⟨hcfg, hdraws⟩

/-! ### The canonical form of memory and display -/

/-- The next state, if the outcome is one, holds its lists in canonical form. -/
def AnswersCanonical (c : Config) (o : Out) : Prop := ∀ t, o = .next t → t.toMachineState.wf c

namespace AnswersCanonical

variable {c : Config} {o : Out}

theorem next (ho : o = .next t) (h : t.toMachineState.wf c) : AnswersCanonical c o := by
  intro u hu
  cases ho.symm.trans hu
  exact h

theorem ite_raise {p : Prop} [Decidable p] {cause : Cause} {w : Word} (hs : s.toMachineState.wf c)
    (h : t.toMachineState.wf c) : AnswersCanonical c (if p then s.raise cause w else .next t) := by
  split
  · exact next rfl hs
  · exact next rfl h

end AnswersCanonical

/-- An instruction writes the lists by operations that keep their form, or not at all. -/
theorem exec_answersCanonical (i : Instr) (hs : s.toMachineState.wf s.cfg) : AnswersCanonical s.cfg (exec i s) := by
  have hmem : Memory.wf s.cfg s.mem := hs.1
  have hdisp : Disp.wf s.disp := hs.2
  cases i
  case cls => exact .next rfl ⟨hmem, Disp.nil_wf⟩
  case drw => exact .ite_raise hs ⟨hmem, State.drawRows_wf _ hdisp⟩
  case ldB | ldMemVx => exact .ite_raise hs ⟨Memory.writeBytes_wf _ _ hmem, hdisp⟩
  case ldVxMem => exact .ite_raise hs (by rw [State.loadRegs_eq]; exact hs)
  case ret =>
    rcases List.eq_nil_or_concat' s.stack with hnil | ⟨rest, a, happend⟩
    · exact .next (exec_ret_of_nil hnil) hs
    · exact .next (exec_ret_of_append happend) hs
  case call => exact .ite_raise hs hs
  case seImm x kk => exact .next (exec_seImm x kk) hs
  case sneImm x kk => exact .next (exec_sneImm x kk) hs
  case seReg x y => exact .next (exec_seReg x y) hs
  case sneReg x y => exact .next (exec_sneReg x y) hs
  case skp x =>
    cases hk : s.keyIndex x with
    | none => exact .next (exec_skp_of_eq_none hk) hs
    | some k => exact .next (exec_skp_of_eq_some hk) hs
  case sknp x =>
    cases hk : s.keyIndex x with
    | none => exact .next (exec_sknp_of_eq_none hk) hs
    | some k => exact .next (exec_sknp_of_eq_some hk) hs
  case ldVxK x =>
    cases hk : s.lowestKey with
    | none => exact .next (exec_ldVxK_of_lowestKey_eq_none hk x) hs
    | some k => exact .next (exec_ldVxK_of_lowestKey_eq_some hk x) hs
  case jp | jpV0 | ldImm | addImm | ldReg | orReg | andReg | xorReg | addReg | subReg | shr | subnReg | shl | rnd
    | ldVxDt | ldDtVx | ldStVx | ldI | addI | ldF =>
    exact .next rfl hs

theorem instrStep_wf (hs : s.toMachineState.wf s.cfg) (h : instrStep s = .next t) : t.toMachineState.wf s.cfg := by
  rcases instrStep_cases s with ⟨c, w, hnext⟩ | ⟨i, hexec⟩
  · cases h.symm.trans hnext
    exact hs
  · exact exec_answersCanonical i hs t (hexec.symm.trans h)

theorem runEvent_wf (hsignal : s.signal = none) (hs : s.toMachineState.wf s.cfg) (he : e.wf s.cfg)
    (h : runEvent e s = .next t) : t.toMachineState.wf s.cfg := by
  cases e
  case instrTick =>
    rcases runEvent_instrTick_cases h with hinstr | rfl
    · exact instrStep_wf hs hinstr
    · exact hs
  case timerTick => rcases runEvent_timerTick_cases hsignal h with ⟨_, _, _, rfl⟩ | rfl <;> exact hs
  case reset =>
    rcases runEvent_reset_cases h with rfl | rfl
    · exact ⟨Memory.writeBytes_wf _ _ (Memory.nil_wf s.cfg), Disp.nil_wf⟩
    · exact hs
  case stateRestore =>
    cases h
    exact he
  case keyDown | keyUp | displayRead | stateRead =>
    cases h
    exact hs

/-- Settles O52: the lists keep their form through the agent's step, and the schedule is the rest of the one before. -/
theorem everyStepKeepsTheInvariant : Obligations.EveryStepKeepsTheInvariant := by
  rintro s t ⟨hs, hevents⟩ h
  obtain ⟨e, he, hevent⟩ := step_cases h
  have hewf : e.wf s.cfg := by
    rcases he with rfl | he
    · exact trivial
    · exact hevents e he
  have ht := runEvent_wf (s := s.begun) rfl hs hewf hevent
  obtain ⟨(hschedule : t.schedule = s.schedule.tail), hcfg, -⟩ := runEvent_keepsInputs (s := s.begun) rfl hevent
  refine ⟨hcfg ▸ ht, fun e' he' => ?_⟩
  rw [hcfg]
  exact hevents e' (List.mem_of_mem_tail (hschedule ▸ he'))

/-! ### The order of the sound edges -/

theorem runEvent_edge (hsignal : s.signal = none) (he : e.ordinary = true) (h : runEvent e s = .next t) :
    t.signal = edgeSignal s.soundPlaying t.soundPlaying := by
  have hnone : s.signal = edgeSignal s.soundPlaying s.soundPlaying := hsignal.trans (edgeSignal_self _).symm
  cases e
  case instrTick =>
    rcases runEvent_instrTick_cases h with hinstr | rfl
    · obtain ⟨hsig, hplaying⟩ := instrStep_edge hinstr
      rw [hsig, hplaying]
      exact hnone
    · exact hnone
  case timerTick =>
    rcases runEvent_timerTick_cases hsignal h with ⟨_, _, _, rfl⟩ | rfl
    · rfl
    · exact hnone
  case stateRestore | reset => exact absurd he Bool.false_ne_true
  case keyDown | keyUp | displayRead | stateRead =>
    cases h
    exact hnone

/-- An edge, or none, comes before edges in turn exactly if those start from the value after it. -/
theorem alternates_edgeSignal_append (was now : Bool) (rest : List Signal) :
    alternates was ((edgeSignal was now).toList ++ rest) ↔ alternates now rest := by
  cases was <;> cases now <;> simp [edgeSignal, alternates]

/-- Settles O44, by induction on the number of steps: each drives the edge between the flag before and after it. -/
theorem soundEdgesAlternate : Obligations.SoundEdgesAlternate := by
  intro k
  induction k with
  | zero => exact fun s _ => trivial
  | succ k ih =>
    intro s hordinary
    unfold signalsAlong
    split
    case h_1 t h =>
      obtain ⟨e, he, hevent⟩ := step_cases h
      have heordinary : e.ordinary = true := by
        rcases he with rfl | he
        · rfl
        · exact hordinary e he
      have hedge : t.signal = edgeSignal s.soundPlaying t.soundPlaying :=
        runEvent_edge (s := s.begun) rfl heordinary hevent
      obtain ⟨(hschedule : t.schedule = s.schedule.tail), -, -⟩ := runEvent_keepsInputs (s := s.begun) rfl hevent
      rw [hedge, alternates_edgeSignal_append]
      exact ih t fun e' he' => hordinary e' (List.mem_of_mem_tail (hschedule ▸ he'))
    case h_2 => exact trivial

/-! ### Runs of a schedule -/

/-- By induction on the events: each is taken off the schedule and answers a next state, and the restore is last. -/
theorem run_events_restore (m : MachineState) (events : List Event) (hs : s.schedule = events ++ [.stateRestore m]) :
    ∃ t, Sys2Proof.core.run (events.length + 1) s = .next t ∧
      t.toMachineState = m ∧ t.signal = none ∧ t.schedule = [] ∧ t.cfg = s.cfg := by
  induction events generalizing s with
  | nil =>
    have hstep := step_of_schedule_eq_cons hs
    exact ⟨_, run_succ_of_step (M := Sys2Proof.core) hstep 0, rfl, rfl, rfl, rfl⟩
  | cons e events ih =>
    obtain ⟨t, hevent⟩ := exists_runEvent_eq_next e { s with signal := none, schedule := events ++ [.stateRestore m] }
    obtain ⟨hschedule, hcfg, -⟩ := runEvent_keepsInputs rfl hevent
    obtain ⟨u, hrun, hmachine, hsignal, hnil, hucfg⟩ := ih hschedule
    have hstep := (step_of_schedule_eq_cons hs).trans hevent
    exact ⟨u, (run_succ_of_step (M := Sys2Proof.core) hstep _).trans hrun, hmachine, hsignal, hnil, hucfg.trans hcfg⟩

/-- Settles O49: the events run to the restore of the state read. -/
theorem restoreUndoesAnySteps : Obligations.RestoreUndoesAnySteps := fun s events =>
  run_events_restore (s := { s with schedule := events ++ [.stateRestore s.toMachineState] })
    s.toMachineState events rfl

end Sys2Proof.Machine
end
